-- ==== Sys2Proof/Word.lean ====
section
/-! DEFINITION. The word types of the hardware (spec/00_scope.md R3, R5, R6): everything is unsigned bits. -/

namespace Sys2Proof

/-- A memory byte, a general register or a timer (R3 `REG_W`, `TIMER_W`). -/
abbrev Byte := BitVec 8

/-- A 16-bit word: I, PC, a stack slot or an instruction word (R3 `I_W`, `PC_W`, `STACK_W`). -/
abbrev Word := BitVec 16

/-- The index of a general register, the field `x` or `y` of an instruction word (R5). -/
abbrev Reg := BitVec 4

/-- A 4-bit immediate, the field `n` (R5). -/
abbrev Nibble := BitVec 4

/-- A 12-bit immediate address, the field `nnn` (R5). -/
abbrev Addr12 := BitVec 12

/-- A keypad snapshot: bit i is 1 when key i is pressed (R27). -/
abbrev Keys := BitVec 16

/-- The 64x32 one-bit display cells (R21): 32 rows, the top one first; bit cx of row cy is cell (cx, cy). -/
abbrev Cells := Vector (BitVec 64) 32

end Sys2Proof
end

