-- ==== Sys2Proof/Config.lean ====
section
/-! DEFINITION. What the hardware fixes once (spec/00_scope.md R3) and the values the spec leaves free (R4, R24, R27).
The two opaque constants have no body: nothing can evaluate them, so every theorem holds for each of their values. -/

namespace Sys2Proof

/-- R3 `MEM_SIZE`: addresses 0x000 to 0xFFF. -/
def Config.memSize : Nat := 4096

/-- R3 `STACK_DEPTH`: sixteen slots. -/
def Config.stackDepth : Nat := 16

/-- R3 `DISP_W`: columns of the display. -/
def Config.dispW : Nat := 64

/-- R3 `DISP_H`: rows of the display. -/
def Config.dispH : Nat := 32

/-- R3 `PROG_BASE`: where the ROM is loaded and where execution starts. -/
def Config.progBase : Nat := 0x200

/-- R3 `MAX_ROM`: the longest ROM, 4096 - 512 bytes. -/
def Config.maxRom : Nat := 3584

/-- R3 `GLYPH_BYTES`: bytes of one glyph of the font. -/
def Config.glyphBytes : Nat := 5

/-- The byte of the n-th draw from the pseudorandom source (R24, R103, D18): a FREE VALUE, log entry 2. -/
opaque Config.rndByte : Nat → Byte

/-- The keypad snapshot of the n-th step for which the host has supplied none in advance (R27: any value is legal): a FREE
VALUE, log entry 1. -/
opaque Config.keySnapshot : Nat → Keys

end Sys2Proof
end

