-- ==== Sys2Proof/Syntax.lean ====
section
/-! DEFINITION. The 34 instructions (spec/30_encoding.md R70), one constructor per row of spec/opcode_table.json, in the
table's order. Every operand's type has exactly the values of its field (R62: all values of every field are legal). -/

namespace Sys2Proof

/-- An instruction of the core. The names follow R69; the rule of each is named beside it. -/
inductive Instr where
  /-- `CLS`, R130. -/
  | cls
  /-- `RET`, R113. -/
  | ret
  /-- `JP nnn`, R110. -/
  | jp (nnn : Addr12)
  /-- `CALL nnn`, R112. -/
  | call (nnn : Addr12)
  /-- `SE Vx, kk`, R114. -/
  | seImm (x : Reg) (kk : Byte)
  /-- `SNE Vx, kk`, R115. -/
  | sneImm (x : Reg) (kk : Byte)
  /-- `SE Vx, Vy`, R116. -/
  | seReg (x y : Reg)
  /-- `LD Vx, kk`, R92. -/
  | ldImm (x : Reg) (kk : Byte)
  /-- `ADD Vx, kk`, R93. -/
  | addImm (x : Reg) (kk : Byte)
  /-- `LD Vx, Vy`, R94. -/
  | ldReg (x y : Reg)
  /-- `OR Vx, Vy`, R95. -/
  | or (x y : Reg)
  /-- `AND Vx, Vy`, R96. -/
  | and (x y : Reg)
  /-- `XOR Vx, Vy`, R97. -/
  | xor (x y : Reg)
  /-- `ADD Vx, Vy`, R98. -/
  | addReg (x y : Reg)
  /-- `SUB Vx, Vy`, R99. -/
  | sub (x y : Reg)
  /-- `SHR Vx`, R100; `y` is decoded and not used (R65). -/
  | shr (x y : Reg)
  /-- `SUBN Vx, Vy`, R101. -/
  | subn (x y : Reg)
  /-- `SHL Vx`, R102; `y` is decoded and not used (R65). -/
  | shl (x y : Reg)
  /-- `SNE Vx, Vy`, R117. -/
  | sneReg (x y : Reg)
  /-- `LD I, nnn`, R125. -/
  | ldI (nnn : Addr12)
  /-- `JP V0, nnn`, R111. -/
  | jpV0 (nnn : Addr12)
  /-- `RND Vx, kk`, R103. -/
  | rnd (x : Reg) (kk : Byte)
  /-- `DRW Vx, Vy, n`, R131. -/
  | drw (x y : Reg) (n : Nibble)
  /-- `SKP Vx`, R140. -/
  | skp (x : Reg)
  /-- `SKNP Vx`, R141. -/
  | sknp (x : Reg)
  /-- `LD Vx, DT`, R150. -/
  | ldFromDT (x : Reg)
  /-- `LD Vx, K`, R142. -/
  | ldKey (x : Reg)
  /-- `LD DT, Vx`, R151. -/
  | ldDT (x : Reg)
  /-- `LD ST, Vx`, R152. -/
  | ldST (x : Reg)
  /-- `ADD I, Vx`, R123. -/
  | addI (x : Reg)
  /-- `LD F, Vx`, R124. -/
  | ldFont (x : Reg)
  /-- `LD B, Vx`, R122. -/
  | ldBcd (x : Reg)
  /-- `LD [I], Vx`, R120. -/
  | storeRegs (x : Reg)
  /-- `LD Vx, [I]`, R121. -/
  | loadRegs (x : Reg)
  deriving DecidableEq, Repr

end Sys2Proof
end

