-- ==== Sys2Proof/WellFormed.lean ====
section
/-! DEFINITION. Which terms are well formed. -/

namespace Sys2Proof

/-- Every term of `Instr` is an instruction: R62 makes all values of every field legal, and R65 all values of the unused
`y` of the two shifts, so the operand types leave nothing to refuse (R68: an ill-formed instruction is an ill-formed word,
which `decodeWord` refuses). Written arm by arm, so that a new constructor must say what it checks. -/
def Instr.wf : Instr → Bool
  | .cls | .ret => true
  | .jp _ | .call _ | .ldI _ | .jpV0 _ => true
  | .seImm _ _ | .sneImm _ _ | .ldImm _ _ | .addImm _ _ | .rnd _ _ => true
  | .seReg _ _ | .sneReg _ _ | .ldReg _ _ | .or _ _ | .and _ _ | .xor _ _ => true
  | .addReg _ _ | .sub _ _ | .subn _ _ | .shr _ _ | .shl _ _ => true
  | .drw _ _ _ => true
  | .skp _ | .sknp _ | .ldKey _ => true
  | .ldFromDT _ | .ldDT _ | .ldST _ => true
  | .addI _ | .ldFont _ | .ldBcd _ | .storeRegs _ | .loadRegs _ => true

/-- A ROM the load accepts: at most 3584 bytes, the empty one included (R201). -/
def Rom.wf (rom : List Byte) : Bool := decide (rom.length ≤ Config.maxRom)

/-- A depth of the call stack: 0 to 16 (R15). -/
def Depth.wf (sp : Nat) : Bool := decide (sp ≤ Config.stackDepth)

end Sys2Proof
end

