-- ==== Sys2Proof/Decode.lean ====
section
/-! DEFINITION. The decoder and, after it, the encoder (spec/30_encoding.md R60 to R68, R70; spec/40_fetch_decode_dispatch.md
R82, R83). Decoding is a pure function of the word. The opcode map of R70 also stands here as rows of mask and match, so
that the decoder's group dispatch can be held against it. -/

namespace Sys2Proof

/-- Why no instruction was decoded: one name per line of R68's table of reserved words, and one for a list of bytes too
short to hold an instruction (never met by a fetch, which reads two bytes: R81). -/
inductive DecodeReject where
  /-- 0x0000 to 0x0FFF except 0x00E0 and 0x00EE, the canonical `SYS nnn` among them (R64, C3). -/
  | reservedGroup0
  /-- 5xyN with N not 0 (R66). -/
  | reservedGroup5
  /-- 8xyN with N in 8 to 0xD or 0xF (R65). -/
  | reservedGroup8
  /-- 9xyN with N not 0 (R66). -/
  | reservedGroup9
  /-- Exkk with kk neither 9E nor A1 (R67). -/
  | reservedGroupE
  /-- Fxkk with kk none of the nine of R67. -/
  | reservedGroupF
  /-- Fewer than two bytes: no instruction word (R60). -/
  | truncated
  deriving DecidableEq, Repr

/-- `op = w[15:12]` (R5). -/
def fieldOp (w : Word) : BitVec 4 := w.extractLsb' 12 4

/-- `x = w[11:8]` (R5). -/
def fieldX (w : Word) : Reg := w.extractLsb' 8 4

/-- `y = w[7:4]` (R5). -/
def fieldY (w : Word) : Reg := w.extractLsb' 4 4

/-- `n = w[3:0]` (R5). -/
def fieldN (w : Word) : Nibble := w.extractLsb' 0 4

/-- `kk = w[7:0]` (R5). -/
def fieldKK (w : Word) : Byte := w.extractLsb' 0 8

/-- `nnn = w[11:0]` (R5). -/
def fieldNNN (w : Word) : Addr12 := w.extractLsb' 0 12

/-- Group 0: the whole word selects (R64). -/
def decodeGroup0 (w : Word) : Except DecodeReject Instr :=
  if w = 0x00E0#16 then .ok .cls
  else if w = 0x00EE#16 then .ok .ret
  else .error .reservedGroup0

/-- Group 5: n must be 0 (R66). -/
def decodeGroup5 (w : Word) : Except DecodeReject Instr :=
  if fieldN w = 0x0#4 then .ok (.seReg (fieldX w) (fieldY w)) else .error .reservedGroup5

/-- Group 8: the low nibble selects (R65). -/
def decodeGroup8 (w : Word) : Except DecodeReject Instr :=
  let x := fieldX w
  let y := fieldY w
  match (fieldN w).toNat with
  | 0x0 => .ok (.ldReg x y)
  | 0x1 => .ok (.or x y)
  | 0x2 => .ok (.and x y)
  | 0x3 => .ok (.xor x y)
  | 0x4 => .ok (.addReg x y)
  | 0x5 => .ok (.sub x y)
  | 0x6 => .ok (.shr x y)
  | 0x7 => .ok (.subn x y)
  | 0xE => .ok (.shl x y)
  | _ => .error .reservedGroup8

/-- Group 9: n must be 0 (R66). -/
def decodeGroup9 (w : Word) : Except DecodeReject Instr :=
  if fieldN w = 0x0#4 then .ok (.sneReg (fieldX w) (fieldY w)) else .error .reservedGroup9

/-- Group E: the low byte selects (R67). -/
def decodeGroupE (w : Word) : Except DecodeReject Instr :=
  match (fieldKK w).toNat with
  | 0x9E => .ok (.skp (fieldX w))
  | 0xA1 => .ok (.sknp (fieldX w))
  | _ => .error .reservedGroupE

/-- Group F: the low byte selects (R67). -/
def decodeGroupF (w : Word) : Except DecodeReject Instr :=
  let x := fieldX w
  match (fieldKK w).toNat with
  | 0x07 => .ok (.ldFromDT x)
  | 0x0A => .ok (.ldKey x)
  | 0x15 => .ok (.ldDT x)
  | 0x18 => .ok (.ldST x)
  | 0x1E => .ok (.addI x)
  | 0x29 => .ok (.ldFont x)
  | 0x33 => .ok (.ldBcd x)
  | 0x55 => .ok (.storeRegs x)
  | 0x65 => .ok (.loadRegs x)
  | _ => .error .reservedGroupF

/-- The decoder (R63, R83): primary dispatch on `op`, secondary dispatch in groups 0, 5, 8, 9, E and F. -/
def decodeWord (w : Word) : Except DecodeReject Instr :=
  match (fieldOp w).toNat with
  | 0x0 => decodeGroup0 w
  | 0x1 => .ok (.jp (fieldNNN w))
  | 0x2 => .ok (.call (fieldNNN w))
  | 0x3 => .ok (.seImm (fieldX w) (fieldKK w))
  | 0x4 => .ok (.sneImm (fieldX w) (fieldKK w))
  | 0x5 => decodeGroup5 w
  | 0x6 => .ok (.ldImm (fieldX w) (fieldKK w))
  | 0x7 => .ok (.addImm (fieldX w) (fieldKK w))
  | 0x8 => decodeGroup8 w
  | 0x9 => decodeGroup9 w
  | 0xA => .ok (.ldI (fieldNNN w))
  | 0xB => .ok (.jpV0 (fieldNNN w))
  | 0xC => .ok (.rnd (fieldX w) (fieldKK w))
  | 0xD => .ok (.drw (fieldX w) (fieldY w) (fieldN w))
  | 0xE => decodeGroupE w
  | _ => decodeGroupF w

/-- Big-endian assembly of an instruction word, `(hi << 8) | lo`: the byte at the lower address is `w[15:8]` (R44, R81). -/
def wordOfBytes (hi lo : Byte) : Word := hi.setWidth 16 <<< 8 ||| lo.setWidth 16

/-- The two bytes of a word, the one at the lower address first (R44). -/
def bytesOfWord (w : Word) : List Byte := [w.extractLsb' 8 8, w.extractLsb' 0 8]

/-- Decodes the instruction at the head of a list of bytes and answers the bytes after it (R60: always two bytes). -/
def decodeBytes : List Byte → Except DecodeReject (Instr × List Byte)
  | hi :: lo :: rest =>
    match decodeWord (wordOfBytes hi lo) with
    | .ok i => .ok (i, rest)
    | .error e => .error e
  | _ => .error .truncated

/-- The instruction the decoder reads from an instruction whose bits are `w`, bit 0 the least significant bit of the first
(and only) 16-bit word; bits at and above `nbits` are 0. The word's bytes are laid out as the hardware stores them. -/
def decodeTableWord (nbits w : Nat) : Option Instr :=
  match decodeBytes (bytesOfWord (BitVec.ofNat 16 (w % 2 ^ nbits))) with
  | .ok (i, _) => some i
  | .error _ => none

/-- Format `XKK` (R61). -/
def formXKK (op : BitVec 4) (x : Reg) (kk : Byte) : Word :=
  op.setWidth 16 <<< 12 ||| x.setWidth 16 <<< 8 ||| kk.setWidth 16

/-- Format `XYN` (R61). -/
def formXYN (op : BitVec 4) (x y : Reg) (n : Nibble) : Word :=
  op.setWidth 16 <<< 12 ||| x.setWidth 16 <<< 8 ||| y.setWidth 16 <<< 4 ||| n.setWidth 16

/-- Format `NNN` (R61). -/
def formNNN (op : BitVec 4) (nnn : Addr12) : Word := op.setWidth 16 <<< 12 ||| nnn.setWidth 16

/-- The word of an instruction, from the patterns of R70's table and the formats of R61. -/
def encode : Instr → Word
  | .cls => 0x00E0#16
  | .ret => 0x00EE#16
  | .jp nnn => formNNN 0x1#4 nnn
  | .call nnn => formNNN 0x2#4 nnn
  | .seImm x kk => formXKK 0x3#4 x kk
  | .sneImm x kk => formXKK 0x4#4 x kk
  | .seReg x y => formXYN 0x5#4 x y 0x0#4
  | .ldImm x kk => formXKK 0x6#4 x kk
  | .addImm x kk => formXKK 0x7#4 x kk
  | .ldReg x y => formXYN 0x8#4 x y 0x0#4
  | .or x y => formXYN 0x8#4 x y 0x1#4
  | .and x y => formXYN 0x8#4 x y 0x2#4
  | .xor x y => formXYN 0x8#4 x y 0x3#4
  | .addReg x y => formXYN 0x8#4 x y 0x4#4
  | .sub x y => formXYN 0x8#4 x y 0x5#4
  | .shr x y => formXYN 0x8#4 x y 0x6#4
  | .subn x y => formXYN 0x8#4 x y 0x7#4
  | .shl x y => formXYN 0x8#4 x y 0xE#4
  | .sneReg x y => formXYN 0x9#4 x y 0x0#4
  | .ldI nnn => formNNN 0xA#4 nnn
  | .jpV0 nnn => formNNN 0xB#4 nnn
  | .rnd x kk => formXKK 0xC#4 x kk
  | .drw x y n => formXYN 0xD#4 x y n
  | .skp x => formXKK 0xE#4 x 0x9E#8
  | .sknp x => formXKK 0xE#4 x 0xA1#8
  | .ldFromDT x => formXKK 0xF#4 x 0x07#8
  | .ldKey x => formXKK 0xF#4 x 0x0A#8
  | .ldDT x => formXKK 0xF#4 x 0x15#8
  | .ldST x => formXKK 0xF#4 x 0x18#8
  | .addI x => formXKK 0xF#4 x 0x1E#8
  | .ldFont x => formXKK 0xF#4 x 0x29#8
  | .ldBcd x => formXKK 0xF#4 x 0x33#8
  | .storeRegs x => formXKK 0xF#4 x 0x55#8
  | .loadRegs x => formXKK 0xF#4 x 0x65#8

/-- The mask and match of an instruction's row of R70: a word `w` is that instruction exactly when `w &&& mask = match`. -/
def Instr.maskMatch : Instr → Word × Word
  | .cls => (0xFFFF#16, 0x00E0#16)
  | .ret => (0xFFFF#16, 0x00EE#16)
  | .jp _ => (0xF000#16, 0x1000#16)
  | .call _ => (0xF000#16, 0x2000#16)
  | .seImm _ _ => (0xF000#16, 0x3000#16)
  | .sneImm _ _ => (0xF000#16, 0x4000#16)
  | .seReg _ _ => (0xF00F#16, 0x5000#16)
  | .ldImm _ _ => (0xF000#16, 0x6000#16)
  | .addImm _ _ => (0xF000#16, 0x7000#16)
  | .ldReg _ _ => (0xF00F#16, 0x8000#16)
  | .or _ _ => (0xF00F#16, 0x8001#16)
  | .and _ _ => (0xF00F#16, 0x8002#16)
  | .xor _ _ => (0xF00F#16, 0x8003#16)
  | .addReg _ _ => (0xF00F#16, 0x8004#16)
  | .sub _ _ => (0xF00F#16, 0x8005#16)
  | .shr _ _ => (0xF00F#16, 0x8006#16)
  | .subn _ _ => (0xF00F#16, 0x8007#16)
  | .shl _ _ => (0xF00F#16, 0x800E#16)
  | .sneReg _ _ => (0xF00F#16, 0x9000#16)
  | .ldI _ => (0xF000#16, 0xA000#16)
  | .jpV0 _ => (0xF000#16, 0xB000#16)
  | .rnd _ _ => (0xF000#16, 0xC000#16)
  | .drw _ _ _ => (0xF000#16, 0xD000#16)
  | .skp _ => (0xF0FF#16, 0xE09E#16)
  | .sknp _ => (0xF0FF#16, 0xE0A1#16)
  | .ldFromDT _ => (0xF0FF#16, 0xF007#16)
  | .ldKey _ => (0xF0FF#16, 0xF00A#16)
  | .ldDT _ => (0xF0FF#16, 0xF015#16)
  | .ldST _ => (0xF0FF#16, 0xF018#16)
  | .addI _ => (0xF0FF#16, 0xF01E#16)
  | .ldFont _ => (0xF0FF#16, 0xF029#16)
  | .ldBcd _ => (0xF0FF#16, 0xF033#16)
  | .storeRegs _ => (0xF0FF#16, 0xF055#16)
  | .loadRegs _ => (0xF0FF#16, 0xF065#16)

/-- One instruction of each row of R70, in the table's order (the operands are of no account: `maskMatch` ignores them). -/
def oneOfEachRow : List Instr :=
  [.cls, .ret, .jp 0, .call 0, .seImm 0 0, .sneImm 0 0, .seReg 0 0, .ldImm 0 0, .addImm 0 0] ++
  [.ldReg 0 0, .or 0 0, .and 0 0, .xor 0 0, .addReg 0 0, .sub 0 0, .shr 0 0, .subn 0 0, .shl 0 0] ++
  [.sneReg 0 0, .ldI 0, .jpV0 0, .rnd 0 0, .drw 0 0 0, .skp 0, .sknp 0] ++
  [.ldFromDT 0, .ldKey 0, .ldDT 0, .ldST 0, .addI 0, .ldFont 0, .ldBcd 0, .storeRegs 0, .loadRegs 0]

/-- A word matches an instruction's row of R70. -/
def Instr.rowMatches (i : Instr) (w : Word) : Bool := w &&& i.maskMatch.1 == i.maskMatch.2

end Sys2Proof
end

