-- ==== Sys2Proof/Machine/State.lean ====
section
/-! DEFINITION. The state of the core (spec/10_state.md R10 to R24), the outputs of its last step (R29 to R31) and the reset
state (spec/70_reset_and_hazards.md R190). -/

namespace Sys2Proof.Machine

/-- The four fatal conditions of R160, in the order of their codes. Each is taken as a NEXT state with the FAULT register
written (R165); no step of this machine answers the host's fault outcome. Raising one is safe: it is what R160 to R164 say. -/
inductive Fault where
  /-- Raised by a step whose fetched word selects no instruction (R161); it carries the word. Safe. -/
  | decodeError (w : Word)
  /-- Raised by `CALL` with sixteen return addresses on the stack (R162). Safe. -/
  | stackOverflow
  /-- Raised by `RET` with an empty stack (R163). Safe. -/
  | stackUnderflow
  /-- Raised by the ROM load when the ROM is longer than 3584 bytes (R164). Safe. -/
  | romTooLarge
  deriving DecidableEq, Repr

/-- Why an instruction was given no meaning. -/
inductive Refusal where
  /-- Raised by an arm of `exec` whose instruction has no meaning yet, by name; no arm of this model does. Safe. -/
  | notModelled (mnemonic : String)
  deriving DecidableEq, Repr

/-- The outcome a step reports (R8, R31). -/
inductive Status where
  /-- One instruction completed, timers ticked. -/
  | done
  /-- The instruction at PC is `LD Vx, K` and no key is down. -/
  | awaitKey
  /-- A fatal condition, with the code and info of R160. -/
  | fault (code : Nat) (info : Word)
  deriving DecidableEq, Repr

/-- A source of values from outside the core: those the host has supplied in advance, the next one first, and how many
free values have been drawn since reset (log entries 1 and 2). -/
structure Feed (w : Nat) where
  supplied : List (BitVec w)
  drawn : Nat
  deriving DecidableEq, Repr

/-- The state: R10 to R24 (complete by R34), then the outputs of the last step, then the keypad input. -/
structure State where
  /-- V0 to VF (R10); VF is also the flag register (R11). -/
  v : Vector Byte 16
  /-- The index register I (R12). -/
  i : Word
  /-- The program counter (R13). -/
  pc : Word
  /-- The call stack S (R14). -/
  stack : Vector Word 16
  /-- The depth of the call stack, 0 to 16 (R15). -/
  sp : Fin 17
  /-- The delay timer (R16). -/
  dt : Byte
  /-- The sound timer (R17). -/
  st : Byte
  /-- The memory M (R20): the bytes that differ from what they hold after reset, by address. -/
  mem : List Host.Cell
  /-- The display buffer D (R21), row by row. -/
  display : Cells
  /-- The keypad latch K (R23). -/
  k : Keys
  /-- The pseudorandom source RNG (R24, R32). -/
  rng : Feed 8
  /-- The fault status register FAULT (R18). -/
  fault : Option Fault
  /-- The output `status` of the last step (R31). -/
  status : Status
  /-- The output `tone` of the last step (R30). -/
  tone : Bool
  /-- The output `disp_updated` of the last step (R29). -/
  dispUpdated : Bool
  /-- The snapshots the input port `keys` presents to the steps to come (R27); the model's own field, log entry 1. -/
  keys : Feed 16
  deriving DecidableEq, Repr

/-- The machine right after reset: the table of R190. Memory lists nothing: the font and the zeros are what an unlisted
byte reads as (`unlistedByte`). -/
def State.reset : State where
  v := Vector.replicate 16 0#8
  i := 0#16
  pc := 0x0200#16
  stack := Vector.replicate 16 0#16
  sp := 0
  dt := 0#8
  st := 0#8
  mem := []
  display := Vector.replicate 32 0#64
  k := 0#16
  rng := ⟨[], 0⟩
  fault := none
  status := .done
  tone := false
  dispUpdated := false
  keys := ⟨[], 0⟩

end Sys2Proof.Machine
end

