-- ==== Sys2Proof/Machine/Ops.lean ====
section
/-! DEFINITION. The named operations over the state that the meanings and the step are written in: registers, memory, the
call stack, the input sources, ending an instruction, TAKING A FAULT (R165: the one exception entry; there is no return
from it, R166), the fetch and the timer tick. -/

namespace Sys2Proof.Machine

/-- The index of VF, the flag register (R11). -/
def vF : Reg := 0xF#4

/-- `V[r]` (R7, R10). -/
def State.getV (s : State) (r : Reg) : Byte := s.v[r.toNat]'r.isLt

/-- `V[r] <- b` (R7, R10). No register is hardwired. -/
def State.setV (s : State) (r : Reg) (b : Byte) : State := { s with v := s.v.set r.toNat b r.isLt }

/-- `I <- a` (R12). -/
def State.setI (s : State) (a : Word) : State := { s with i := a }

/-- `DT <- b` (R16). -/
def State.setDT (s : State) (b : Byte) : State := { s with dt := b }

/-- `ST <- b` (R17). -/
def State.setST (s : State) (b : Byte) : State := { s with st := b }

/-- `MemRead(a, 1) = M[EA(a)]` (R7, R41), for any sum `a`. -/
def State.readByte (s : State) (a : Nat) : Byte := Memory.read s.mem (ea a)

/-- `MemWrite(a, 1, b)`: `M[EA(a)] <- b` (R7, R41). -/
def State.writeByte (s : State) (a : Nat) (b : Byte) : State := { s with mem := Memory.write s.mem (ea a) b }

/-- A push (R15): `S[SP] <- a`, then `SP <- SP + 1`. -/
def State.push (s : State) (a : Word) (h : s.sp.val < 16) : State :=
  { s with stack := s.stack.set s.sp.val a h, sp := ⟨s.sp.val + 1, by omega⟩ }

/-- The slot a pop reads (R15): `S[SP - 1]`. -/
def State.top (s : State) (h : 0 < s.sp.val) : Word := s.stack[s.sp.val - 1]'(by omega)

/-- A pop's write (R15): `SP <- SP - 1`; the slot keeps its contents (R113). -/
def State.drop (s : State) (h : 0 < s.sp.val) : State := { s with sp := ⟨s.sp.val - 1, by omega⟩ }

/-- The next value of an outside source: the first supplied one, else a free value (log entries 1 and 2). -/
def Feed.take {w : Nat} (free : Nat → BitVec w) : Feed w → BitVec w × Feed w
  | ⟨b :: bs, n⟩ => (b, ⟨bs, n⟩)
  | ⟨[], n⟩ => (free n, ⟨[], n + 1⟩)

/-- The byte the next `RndByte()` draws (R24). -/
def State.rndByte (s : State) : Byte := (s.rng.take Config.rndByte).1

/-- The generator advanced by one draw (R24). -/
def State.advanceRng (s : State) : State := { s with rng := (s.rng.take Config.rndByte).2 }

/-- The end of an instruction that completes: its last statement, `PC <- a` (R85), and the outcome DONE (R8). -/
def State.goto (s : State) (a : Word) : State := { s with pc := a, status := .done }

/-- `PC <- PC + 2`, the default end (R85); modulo 65536 (R13). -/
def State.advance (s : State) : State := s.goto (s.pc + 2#16)

/-- The end of a conditional skip (R85): `PC <- PC + 4` if the predicate holds, else `PC <- PC + 2`. -/
def State.skipIf (s : State) (p : Bool) : State := s.goto (if p then s.pc + 4#16 else s.pc + 2#16)

/-- `await` (R7, R176): no state change, the outcome AWAIT_KEY. -/
def State.await (s : State) : State := { s with status := .awaitKey }

/-- The code a fault is reported with (R160). -/
def Fault.code : Fault → Nat
  | .decodeError _ => 1
  | .stackOverflow => 2
  | .stackUnderflow => 3
  | .romTooLarge => 4

/-- The recorded value a fault is reported with (R160). -/
def Fault.info : Fault → Word
  | .decodeError w => w
  | .stackOverflow => 0#16
  | .stackUnderflow => 0#16
  | .romTooLarge => 0#16

/-- The outcome `FAULT(code, info)` of a fault (R31). -/
def Fault.status (f : Fault) : Status := .fault f.code f.info

/-- TAKING A FAULT (R165): `FAULT <- f` and the outcome FAULT(code, info); nothing else changes, and PC is not saved. -/
def State.raise (s : State) (f : Fault) : State := { s with fault := some f, status := f.status }

/-- A step that finds FAULT set reports it again (R166, stage 1 of R80). -/
def State.reportFault (s : State) (f : Fault) : State := { s with status := f.status }

/-- The start of every step: the pulse outputs are 0 unless this step sets them (R29, R30). -/
def State.clearPulses (s : State) : State := { s with tone := false, dispUpdated := false }

/-- Stage 2 of the step (R80, R23): K takes the snapshot. -/
def State.latchKeys (s : State) (keys : Keys) : State := { s with k := keys }

/-- The snapshot the input port presents to the next step (R27), log entry 1. -/
def State.nextKeys (s : State) : Keys := (s.keys.take Config.keySnapshot).1

/-- The input port moved on by one step. -/
def State.consumeKeys (s : State) : State := { s with keys := (s.keys.take Config.keySnapshot).2 }

/-- Stage 3 of the step (R81): `w <- MemRead(PC, 2)`, big-endian (R44). -/
def State.fetchWord (s : State) : Word := wordOfBytes (s.readByte s.pc.toNat) (s.readByte (s.pc.toNat + 1))

/-- Where a timer stands after a tick: down by one, 0 stays 0 (R170). -/
def tickDown (t : Byte) : Byte := if t = 0#8 then 0#8 else t - 1#8

/-- Stage 6 of the step (R170, R171): both timers tick; `tone` is 1 when ST was exactly 1 before. -/
def State.tick (s : State) : State :=
  { s with dt := tickDown s.dt, st := tickDown s.st, tone := decide (s.st = 1#8) }

/-- The tick is part of a completed step only (R172). -/
def State.finish (s : State) : State := if s.status = .done then s.tick else s

/-- The state that stage 3 sees: pulses cleared, the snapshot latched (R80 stages 1 and 2). -/
def State.opened (s : State) (keys : Keys) : State := s.clearPulses.latchKeys keys

/-- Writes an instruction word where the next step fetches it (R44, R81). -/
def State.placeWord (s : State) (w : Word) : State :=
  (s.writeByte s.pc.toNat (w.extractLsb' 8 8)).writeByte (s.pc.toNat + 1) (w.extractLsb' 0 8)

end Sys2Proof.Machine
end

