-- ==== Sys2Proof/Machine/Flags.lean ====
section
/-! DEFINITION. Every value the flag register VF is given (spec/10_state.md R11; spec/41_alu.md R90, R91, R98 to R102;
spec/44_display.md R131): 0 or 1, carry and borrow judged on the exact integer values. -/

namespace Sys2Proof.Machine

/-- A flag as VF holds it: the value 0 or 1 (R11). -/
def flagByte (p : Bool) : Byte := if p then 1#8 else 0#8

/-- Carry (R90, R98): the exact sum exceeds 255. -/
def carry (a b : Byte) : Byte := flagByte (decide (255 < a.toNat + b.toNat))

/-- Not-borrow (R90, R99, R101): minuend >= subtrahend. -/
def notBorrow (minuend subtrahend : Byte) : Byte := flagByte (decide (subtrahend.toNat ≤ minuend.toNat))

/-- The bit a shift right by one puts out: bit 0 (R100). -/
def lowBit (a : Byte) : Byte := flagByte (a.getLsbD 0)

/-- The bit a shift left by one puts out: bit 7 (R102). -/
def highBit (a : Byte) : Byte := flagByte (a.getLsbD 7)

/-- `V[0xF] <- flag` (R91 (b)): written before the result, so that the result is computed from the registers as they then
stand (D9). -/
def State.setFlag (s : State) (flag : Byte) : State := s.setV vF flag

end Sys2Proof.Machine
end

