-- ==== Sys2Proof/Machine/Operands.lean ====
section
/-! DEFINITION. Every operand form of the instruction set (spec/30_encoding.md R62; spec/43_memory_block.md R126;
spec/45_input.md R140 to R142): widened immediates, the registers of a block transfer, the memory bytes through I, the key
index and the least pressed key, the glyph address and the decimal digits. -/

namespace Sys2Proof.Machine

/-- `zext_16(nnn)` (R6, R62). -/
def zextAddr (nnn : Addr12) : Word := nnn.setWidth 16

/-- `zext_16(b)` of a byte (R6). -/
def zextByte (b : Byte) : Word := b.setWidth 16

/-- V0 to VF in ascending order. -/
def allRegs : List Reg :=
  [0x0#4, 0x1#4, 0x2#4, 0x3#4, 0x4#4, 0x5#4, 0x6#4, 0x7#4, 0x8#4, 0x9#4, 0xA#4, 0xB#4, 0xC#4, 0xD#4, 0xE#4, 0xF#4]

/-- The registers of a block transfer, V0 to Vx inclusive in ascending order (R120, R121). -/
def regsUpTo (x : Reg) : List Reg := allRegs.take (x.toNat + 1)

/-- The address `I + k` before it is reduced (R126): the full sum. -/
def State.dataAddr (s : State) (k : Nat) : Nat := s.i.toNat + k

/-- One store of `LD [I], Vx` (R120): `MemWrite(I + r, 1, V[r])`. -/
def State.storeReg (s : State) (r : Reg) : State := s.writeByte (s.dataAddr r.toNat) (s.getV r)

/-- One load of `LD Vx, [I]` (R121): `V[r] <- MemRead(I + r, 1)`. -/
def State.loadReg (s : State) (r : Reg) : State := s.setV r (s.readByte (s.dataAddr r.toNat))

/-- The key index of a register's value: its low nibble (R140, D14). -/
def keyIndex (b : Byte) : Nibble := b.setWidth 4

/-- `K[i]` (R7). -/
def State.keyDown (s : State) (i : Nibble) : Bool := s.k.getLsbD i.toNat

/-- The least i with `K[i] = 1`, none when no key is down (R142, D16 `KEY_PICK`). -/
def State.leastKey (s : State) : Option Nibble := allRegs.find? s.keyDown

/-- The address of the glyph of a digit: five bytes a glyph from 0x000, no masking (R124, D13). -/
def glyphAddr (b : Byte) : Word := BitVec.ofNat 16 (b.toNat * Config.glyphBytes)

/-- `v div 100` (R122). -/
def hundreds (v : Byte) : Byte := BitVec.ofNat 8 (v.toNat / 100)

/-- `(v div 10) mod 10` (R122). -/
def tens (v : Byte) : Byte := BitVec.ofNat 8 (v.toNat / 10 % 10)

/-- `v mod 10` (R122). -/
def ones (v : Byte) : Byte := BitVec.ofNat 8 (v.toNat % 10)

end Sys2Proof.Machine
end

