-- ==== Sys2Proof/Machine/Alu.lean ====
section
/-! DEFINITION. The arithmetic, logical and register instructions (spec/41_alu.md). The five that write VF as a flag do it in
the order of R91: the flag from the entry values, VF, then the result from the registers as they then stand. -/

namespace Sys2Proof.Machine

/-- `LD Vx, kk` (R92). -/
def execLdImm (x : Reg) (kk : Byte) (s : State) : Host.Outcome State Fault Refusal :=
  .next (s.setV x kk).advance

/-- `ADD Vx, kk` (R93): wraps, no flag. -/
def execAddImm (x : Reg) (kk : Byte) (s : State) : Host.Outcome State Fault Refusal :=
  .next (s.setV x (s.getV x + kk)).advance

/-- `LD Vx, Vy` (R94). -/
def execLdReg (x y : Reg) (s : State) : Host.Outcome State Fault Refusal :=
  .next (s.setV x (s.getV y)).advance

/-- `OR Vx, Vy` (R95): no flag. -/
def execOr (x y : Reg) (s : State) : Host.Outcome State Fault Refusal :=
  .next (s.setV x (s.getV x ||| s.getV y)).advance

/-- `AND Vx, Vy` (R96): no flag. -/
def execAnd (x y : Reg) (s : State) : Host.Outcome State Fault Refusal :=
  .next (s.setV x (s.getV x &&& s.getV y)).advance

/-- `XOR Vx, Vy` (R97): no flag. -/
def execXor (x y : Reg) (s : State) : Host.Outcome State Fault Refusal :=
  .next (s.setV x (s.getV x ^^^ s.getV y)).advance

/-- Parts (b) and (c) of R91: `V[0xF] <- flag`, then `V[x] <- result` computed in the state after that write. -/
def State.flagThen (s : State) (flag : Byte) (x : Reg) (result : State → Byte) : State :=
  (s.setFlag flag).setV x (result (s.setFlag flag))

/-- `ADD Vx, Vy` (R98): VF is the carry. -/
def execAddReg (x y : Reg) (s : State) : Host.Outcome State Fault Refusal :=
  .next (s.flagThen (carry (s.getV x) (s.getV y)) x fun t => t.getV x + t.getV y).advance

/-- `SUB Vx, Vy` (R99): VF is 1 when Vx >= Vy. -/
def execSub (x y : Reg) (s : State) : Host.Outcome State Fault Refusal :=
  .next (s.flagThen (notBorrow (s.getV x) (s.getV y)) x fun t => t.getV x - t.getV y).advance

/-- `SHR Vx` (R100): VF is the bit shifted out; `y` is ignored (R65). -/
def execShr (x _y : Reg) (s : State) : Host.Outcome State Fault Refusal :=
  .next (s.flagThen (lowBit (s.getV x)) x fun t => t.getV x >>> 1).advance

/-- `SUBN Vx, Vy` (R101): VF is 1 when Vy >= Vx. -/
def execSubn (x y : Reg) (s : State) : Host.Outcome State Fault Refusal :=
  .next (s.flagThen (notBorrow (s.getV y) (s.getV x)) x fun t => t.getV y - t.getV x).advance

/-- `SHL Vx` (R102): VF is the bit shifted out; `y` is ignored (R65). -/
def execShl (x _y : Reg) (s : State) : Host.Outcome State Fault Refusal :=
  .next (s.flagThen (highBit (s.getV x)) x fun t => t.getV x <<< 1).advance

/-- `RND Vx, kk` (R103): one draw whatever `kk` is (D18). -/
def execRnd (x : Reg) (kk : Byte) (s : State) : Host.Outcome State Fault Refusal :=
  .next (s.advanceRng.setV x (s.rndByte &&& kk)).advance

end Sys2Proof.Machine
end

