-- ==== Sys2Proof/Machine/Block.lean ====
section
/-! DEFINITION. Block transfers, the decimal conversion and the index register (spec/43_memory_block.md). None writes VF as a
flag, none can fault, and the transfers leave I alone (R126, D17). -/

namespace Sys2Proof.Machine

/-- The stores of `LD [I], Vx` in ascending order (R120). -/
def storeAll (rs : List Reg) (s : State) : State := rs.foldl State.storeReg s

/-- The loads of `LD Vx, [I]` in ascending order (R121). -/
def loadAll (rs : List Reg) (s : State) : State := rs.foldl State.loadReg s

/-- `LD [I], Vx` (R120). -/
def execStoreRegs (x : Reg) (s : State) : Host.Outcome State Fault Refusal :=
  .next (storeAll (regsUpTo x) s).advance

/-- `LD Vx, [I]` (R121). -/
def execLoadRegs (x : Reg) (s : State) : Host.Outcome State Fault Refusal :=
  .next (loadAll (regsUpTo x) s).advance

/-- The three digits of `LD B, Vx` at I, I+1, I+2 (R122). -/
def storeDigits (v : Byte) (s : State) : State :=
  ((s.writeByte (s.dataAddr 0) (hundreds v)).writeByte (s.dataAddr 1) (tens v)).writeByte (s.dataAddr 2) (ones v)

/-- `LD B, Vx` (R122). -/
def execLdBcd (x : Reg) (s : State) : Host.Outcome State Fault Refusal :=
  .next (storeDigits (s.getV x) s).advance

/-- `ADD I, Vx` (R123): kept to 16 bits, no flag. -/
def execAddI (x : Reg) (s : State) : Host.Outcome State Fault Refusal :=
  .next (s.setI (s.i + zextByte (s.getV x))).advance

/-- `LD F, Vx` (R124). -/
def execLdFont (x : Reg) (s : State) : Host.Outcome State Fault Refusal :=
  .next (s.setI (glyphAddr (s.getV x))).advance

/-- `LD I, nnn` (R125). -/
def execLdI (nnn : Addr12) (s : State) : Host.Outcome State Fault Refusal :=
  .next (s.setI (zextAddr nnn)).advance

end Sys2Proof.Machine
end

