-- ==== Sys2Proof/Machine/Control.lean ====
section
/-! DEFINITION. Jumps, the call stack and the conditional skips (spec/42_control_flow.md). -/

namespace Sys2Proof.Machine

/-- `JP nnn` (R110). -/
def execJp (nnn : Addr12) (s : State) : Host.Outcome State Fault Refusal :=
  .next (s.goto (zextAddr nnn))

/-- `JP V0, nnn` (R111): the sum is held in PC as it is. -/
def execJpV0 (nnn : Addr12) (s : State) : Host.Outcome State Fault Refusal :=
  .next (s.goto (zextAddr nnn + zextByte (s.getV 0x0#4)))

/-- `CALL nnn` (R112): pushes the address after it, or takes StackOverflow at depth 16 (R162). -/
def execCall (nnn : Addr12) (s : State) : Host.Outcome State Fault Refusal :=
  if h : s.sp.val < 16 then .next ((s.push (s.pc + 2#16) h).goto (zextAddr nnn))
  else .next (s.raise .stackOverflow)

/-- `RET` (R113): pops into PC, or takes StackUnderflow at depth 0 (R163). -/
def execRet (s : State) : Host.Outcome State Fault Refusal :=
  if h : 0 < s.sp.val then .next ((s.drop h).goto (s.top h))
  else .next (s.raise .stackUnderflow)

/-- `SE Vx, kk` (R114). -/
def execSeImm (x : Reg) (kk : Byte) (s : State) : Host.Outcome State Fault Refusal :=
  .next (s.skipIf (s.getV x == kk))

/-- `SNE Vx, kk` (R115). -/
def execSneImm (x : Reg) (kk : Byte) (s : State) : Host.Outcome State Fault Refusal :=
  .next (s.skipIf (s.getV x != kk))

/-- `SE Vx, Vy` (R116). -/
def execSeReg (x y : Reg) (s : State) : Host.Outcome State Fault Refusal :=
  .next (s.skipIf (s.getV x == s.getV y))

/-- `SNE Vx, Vy` (R117). -/
def execSneReg (x y : Reg) (s : State) : Host.Outcome State Fault Refusal :=
  .next (s.skipIf (s.getV x != s.getV y))

end Sys2Proof.Machine
end

