-- ==== Sys2Proof/Machine/Display.lean ====
section
/-! DEFINITION. The draw engine and the clear (spec/44_display.md), and the display as the output port shows it
(spec/10_state.md R22, R29). -/

namespace Sys2Proof.Machine

/-- `D[cx, cy]` (R7, R21): column cx of row cy. -/
def cellAt (d : Cells) (cx : Fin 64) (cy : Fin 32) : Bool := (d[cy.val]'cy.isLt).getLsbD cx.val

/-- The display with cell (cx, cy) XORed with 1. -/
def flipCell (d : Cells) (cx : Fin 64) (cy : Fin 32) : Cells :=
  d.set cy.val (d[cy.val]'cy.isLt ^^^ BitVec.twoPow 64 cx.val) cy.isLt

/-- Every cell 0 (R130). -/
def clearCells : Cells := Vector.replicate 32 0#64

/-- Element `j` of the output port `display[2047:0]` (R29): cell (cx, cy) is element cy*64+cx (R22). -/
def State.displayPort (s : State) (j : Fin 2048) : Bool :=
  cellAt s.display ⟨j.val % 64, by omega⟩ ⟨j.val / 64, by omega⟩

/-- The display while a sprite is drawn, and whether a set cell has met a set sprite bit so far (R131). -/
structure Canvas where
  cells : Cells
  hit : Bool
  deriving DecidableEq, Repr

/-- Column `col` of a sprite row: bit 7 is the leftmost (R132). -/
def spriteBit (b : Byte) (col : Nat) : Bool := b.getLsbD (7 - col)

/-- The target column of sprite column `col` at `px`: wraps per cell (R131). -/
def targetX (px : Byte) (col : Nat) : Fin 64 := ⟨(px.toNat + col) % 64, by omega⟩

/-- The target row of sprite row `row` at `py`: wraps per cell (R131). -/
def targetY (py : Byte) (row : Nat) : Fin 32 := ⟨(py.toNat + row) % 32, by omega⟩

/-- One sprite bit meets one cell: collision when both are 1, then XOR (R131). -/
def drawBit (cx : Fin 64) (cy : Fin 32) (bit : Bool) (c : Canvas) : Canvas :=
  if bit then ⟨flipCell c.cells cx cy, c.hit || cellAt c.cells cx cy⟩ else c

/-- One row of a sprite: columns 0 to 7 (R131). -/
def drawRow (px py : Byte) (row : Nat) (b : Byte) (c : Canvas) : Canvas :=
  (List.range 8).foldl (fun c col => drawBit (targetX px col) (targetY py row) (spriteBit b col) c) c

/-- A sprite of `n` rows, the byte of row `row` given by `rows` (R131). -/
def drawSprite (px py : Byte) (n : Nat) (rows : Nat → Byte) (c : Canvas) : Canvas :=
  (List.range n).foldl (fun c row => drawRow px py row (rows row) c) c

/-- Sprite row `row`: the byte at I + row (R131). -/
def State.spriteRow (s : State) (row : Nat) : Byte := s.readByte (s.dataAddr row)

/-- What a `DRW` makes of the display: the coordinates are the values on entry (D10), no collision yet. -/
def State.drawn (s : State) (x y : Reg) (n : Nibble) : Canvas :=
  drawSprite (s.getV x) (s.getV y) n.toNat s.spriteRow ⟨s.display, false⟩

/-- A completed draw or clear writes the display and pulses `disp_updated` (R29). -/
def State.show (s : State) (d : Cells) : State := { s with display := d, dispUpdated := true }

/-- `CLS` (R130). -/
def execCls (s : State) : Host.Outcome State Fault Refusal := .next (s.show clearCells).advance

/-- `DRW Vx, Vy, n` (R131): VF is the collision flag, written also when n = 0. -/
def execDrw (x y : Reg) (n : Nibble) (s : State) : Host.Outcome State Fault Refusal :=
  .next ((s.setFlag (flagByte (s.drawn x y n).hit)).show (s.drawn x y n).cells).advance

end Sys2Proof.Machine
end

