-- ==== Sys2Proof/Machine/Input.lean ====
section
/-! DEFINITION. The keypad instructions (spec/45_input.md): each sees the snapshot latched at the start of its own step. -/

namespace Sys2Proof.Machine

/-- `SKP Vx` (R140). -/
def execSkp (x : Reg) (s : State) : Host.Outcome State Fault Refusal :=
  .next (s.skipIf (s.keyDown (keyIndex (s.getV x))))

/-- `SKNP Vx` (R141). -/
def execSknp (x : Reg) (s : State) : Host.Outcome State Fault Refusal :=
  .next (s.skipIf (!s.keyDown (keyIndex (s.getV x))))

/-- `LD Vx, K` (R142): awaits while no key is down, else completes with the least pressed index. -/
def execLdKey (x : Reg) (s : State) : Host.Outcome State Fault Refusal :=
  .next (match s.leastKey with
    | none => s.await
    | some i => (s.setV x (i.setWidth 8)).advance)

end Sys2Proof.Machine
end

