-- ==== Sys2Proof/Machine/Step.lean ====
section
/-! DEFINITION. The step (spec/40_fetch_decode_dispatch.md R80): stages 1 to 7, written over the operations of
Machine/Ops.lean. -/

namespace Sys2Proof.Machine

/-- Stages 5 and 6: the instruction's rule, then the tick of a completed instruction (R80, R172). -/
def runInstr (i : Instr) (s : State) : Host.Outcome State Fault Refusal :=
  match exec i s with
  | .next t => .next t.finish
  | .fault r => .fault r
  | .refused r => .refused r

/-- `step(keys)` of R80, the snapshot its argument. -/
def stepKeys (keys : Keys) (s : State) : Host.Outcome State Fault Refusal :=
  match s.fault with
  | some f => .next (s.clearPulses.reportFault f)
  | none =>
    match decodeWord (s.opened keys).fetchWord with
    | .ok i => runInstr i (s.opened keys)
    | .error _ => .next ((s.opened keys).raise (.decodeError (s.opened keys).fetchWord))

/-- One step request: the input port presents its next snapshot (R27), and R80 runs. -/
def step (s : State) : Host.Outcome State Fault Refusal := stepKeys s.nextKeys s.consumeKeys

/-- `s` with the instruction whose bits are `w` (those at and above `nbits` zero) stored where `step` fetches its next
instruction. A step fetches only while FAULT is `None` (R80 stage 1), so FAULT is `None` in the result. -/
def State.withFetchWord (s : State) (nbits w : Nat) : State :=
  { s.placeWord (BitVec.ofNat 16 (w % 2 ^ nbits)) with fault := none }

end Sys2Proof.Machine
end

