-- ==== Sys2Proof/Machine/Ports.lean ====
section
/-! DEFINITION. What the host can do to the core (spec/10_state.md R25 to R28; spec/70_reset_and_hazards.md R200 to R203): reset
and load a ROM, then request steps, each with its snapshot. It has no other move (R203, D27). -/

namespace Sys2Proof.Machine

/-- `rom_load` (R200): the bytes verbatim from 0x200, or RomTooLarge and no byte written (R202). -/
def romLoad (rom : List Byte) (s : State) : State :=
  if Rom.wf rom then { s with mem := Memory.writeBytes s.mem Config.progBase rom, status := .done }
  else s.raise .romTooLarge

/-- Reset with the generator at `seed`, an input at reset (R26, R32, R190); the other fields are those of `State.reset`. -/
def resetWith (seed : Feed 8) : State := { State.reset with rng := seed }

/-- Reset, then the one ROM load that may follow it (R203). -/
def boot (seed : Feed 8) (rom : List Byte) : State := romLoad rom (resetWith seed)

/-- A move of the host. -/
inductive Move where
  /-- A step request with its keypad snapshot (R25, R27). -/
  | step (keys : Keys)
  /-- Reset with no ROM load after it (R26). -/
  | reset (seed : Feed 8)
  /-- Reset and the ROM load (R26, R28, R203). -/
  | boot (seed : Feed 8) (rom : List Byte)
  deriving DecidableEq, Repr

/-- What a move of the host does to the core. -/
def hostMove (m : Move) (s : State) : Host.Outcome State Fault Refusal :=
  match m with
  | .step keys => stepKeys keys s
  | .reset seed => .next (resetWith seed)
  | .boot seed rom => .next (boot seed rom)

end Sys2Proof.Machine
end

