-- ==== Sys2Proof/Safety.lean ====
section
/-! DEFINITION. The terms in which claims are stated: what a step may change (frames), the write set of each instruction
(spec/10_state.md R33), and the invariant of the core. -/

namespace Sys2Proof.Machine

/-- The parts of the state. -/
inductive Part where
  | v | i | pc | stack | sp | dt | st | mem | display | k | rng | fault | status | tone | dispUpdated | keys
  deriving DecidableEq, Repr

/-- A part holds in `t` what it holds in `s`: every register, every byte of memory, every slot and every cell. -/
def Part.same : Part → State → State → Prop
  | .v, s, t => ∀ r : Reg, t.getV r = s.getV r
  | .i, s, t => t.i = s.i
  | .pc, s, t => t.pc = s.pc
  | .stack, s, t => ∀ j : Fin 16, t.stack[j] = s.stack[j]
  | .sp, s, t => t.sp = s.sp
  | .dt, s, t => t.dt = s.dt
  | .st, s, t => t.st = s.st
  | .mem, s, t => ∀ a : Nat, t.readByte a = s.readByte a
  | .display, s, t => ∀ (cx : Fin 64) (cy : Fin 32), cellAt t.display cx cy = cellAt s.display cx cy
  | .k, s, t => t.k = s.k
  | .rng, s, t => t.rng = s.rng
  | .fault, s, t => t.fault = s.fault
  | .status, s, t => t.status = s.status
  | .tone, s, t => t.tone = s.tone
  | .dispUpdated, s, t => t.dispUpdated = s.dispUpdated
  | .keys, s, t => t.keys = s.keys

/-- Every part outside `ps` is unchanged. -/
def Frame (ps : List Part) (s t : State) : Prop := ∀ p : Part, p ∉ ps → p.same s t

end Sys2Proof.Machine

namespace Sys2Proof

/-- The parts an instruction may write (R33's right column; `status` and `disp_updated` are outputs, R29 and R31; `fault` is
written by the two instructions that can raise one, R160). -/
def Instr.writes : Instr → List Machine.Part
  | .cls => [.display, .dispUpdated, .pc, .status]
  | .ret => [.sp, .pc, .status, .fault]
  | .jp _ | .jpV0 _ => [.pc, .status]
  | .call _ => [.stack, .sp, .pc, .status, .fault]
  | .seImm _ _ | .sneImm _ _ | .seReg _ _ | .sneReg _ _ | .skp _ | .sknp _ => [.pc, .status]
  | .ldImm _ _ | .addImm _ _ | .ldReg _ _ | .or _ _ | .and _ _ | .xor _ _ => [.v, .pc, .status]
  | .addReg _ _ | .sub _ _ | .shr _ _ | .subn _ _ | .shl _ _ => [.v, .pc, .status]
  | .ldI _ | .addI _ | .ldFont _ => [.i, .pc, .status]
  | .rnd _ _ => [.rng, .v, .pc, .status]
  | .drw _ _ _ => [.v, .display, .dispUpdated, .pc, .status]
  | .ldFromDT _ | .ldKey _ | .loadRegs _ => [.v, .pc, .status]
  | .ldDT _ => [.dt, .pc, .status]
  | .ldST _ => [.st, .pc, .status]
  | .ldBcd _ | .storeRegs _ => [.mem, .pc, .status]

/-- The general registers an instruction may write (R33's right column, R11). -/
def Instr.writesReg : Instr → Reg → Bool
  | .ldImm x _, r | .addImm x _, r | .rnd x _, r => r == x
  | .ldReg x _, r | .or x _, r | .and x _, r | .xor x _, r => r == x
  | .addReg x _, r | .sub x _, r | .shr x _, r | .subn x _, r | .shl x _, r => r == x || r == Machine.vF
  | .drw _ _ _, r => r == Machine.vF
  | .ldFromDT x, r | .ldKey x, r => r == x
  | .loadRegs x, r => decide (r.toNat ≤ x.toNat)
  | .cls, _ | .ret, _ | .jp _, _ | .call _, _ | .jpV0 _, _ => false
  | .seImm _ _, _ | .sneImm _ _, _ | .seReg _ _, _ | .sneReg _ _, _ | .skp _, _ | .sknp _, _ => false
  | .ldI _, _ | .addI _, _ | .ldFont _, _ | .ldDT _, _ | .ldST _, _ | .ldBcd _, _ | .storeRegs _, _ => false

/-- The bytes of memory an instruction may write, at any sum `a` (R33's right column): those at the effective addresses of
I + k, for k up to x (R120) or below 3 (R122). -/
def Instr.writesByte : Instr → Machine.State → Nat → Prop
  | .storeRegs x, s, a => ∃ k ≤ x.toNat, Machine.ea a = Machine.ea (s.dataAddr k)
  | .ldBcd _, s, a => ∃ k < 3, Machine.ea a = Machine.ea (s.dataAddr k)
  | .cls, _, _ | .ret, _, _ | .jp _, _, _ | .call _, _, _ | .jpV0 _, _, _ => False
  | .seImm _ _, _, _ | .sneImm _ _, _, _ | .seReg _ _, _, _ | .sneReg _ _, _, _ | .skp _, _, _ | .sknp _, _, _ => False
  | .ldImm _ _, _, _ | .addImm _ _, _, _ | .ldReg _ _, _, _ | .or _ _, _, _ | .and _ _, _, _ | .xor _ _, _, _ => False
  | .addReg _ _, _, _ | .sub _ _, _, _ | .shr _ _, _, _ | .subn _ _, _, _ | .shl _ _, _, _ | .rnd _ _, _, _ => False
  | .ldI _, _, _ | .addI _, _, _ | .ldFont _, _, _ | .drw _ _ _, _, _ | .loadRegs _, _, _ => False
  | .ldFromDT _, _, _ | .ldKey _, _, _ | .ldDT _, _, _ | .ldST _, _, _ => False

/-- The stack slots an instruction may write (R33's right column): `CALL` writes `S[SP]`. -/
def Instr.writesSlot : Instr → Machine.State → Fin 16 → Prop
  | .call _, s, j => j.val = s.sp.val
  | .cls, _, _ | .ret, _, _ | .jp _, _, _ | .jpV0 _, _, _ => False
  | .seImm _ _, _, _ | .sneImm _ _, _, _ | .seReg _ _, _, _ | .sneReg _ _, _, _ | .skp _, _, _ | .sknp _, _, _ => False
  | .ldImm _ _, _, _ | .addImm _ _, _, _ | .ldReg _ _, _, _ | .or _ _, _, _ | .and _ _, _, _ | .xor _ _, _, _ => False
  | .addReg _ _, _, _ | .sub _ _, _, _ | .shr _ _, _, _ | .subn _ _, _, _ | .shl _ _, _, _ | .rnd _ _, _, _ => False
  | .ldI _, _, _ | .addI _, _, _ | .ldFont _, _, _ | .drw _ _ _, _, _ | .loadRegs _, _, _ => False
  | .ldBcd _, _, _ | .storeRegs _, _, _ => False
  | .ldFromDT _, _, _ | .ldKey _, _, _ | .ldDT _, _, _ | .ldST _, _, _ => False

/-- The 23 instructions whose rule ends `PC <- PC + 2` (R85). -/
def Instr.isSequential : Instr → Bool
  | .cls | .ldImm _ _ | .addImm _ _ | .ldReg _ _ | .or _ _ | .and _ _ | .xor _ _ | .addReg _ _ | .sub _ _ => true
  | .shr _ _ | .subn _ _ | .shl _ _ | .rnd _ _ | .storeRegs _ | .loadRegs _ | .ldBcd _ | .addI _ | .ldFont _ => true
  | .ldI _ | .drw _ _ _ | .ldFromDT _ | .ldDT _ | .ldST _ => true
  | .seImm _ _ | .sneImm _ _ | .seReg _ _ | .sneReg _ _ | .skp _ | .sknp _ => false
  | .jp _ | .jpV0 _ | .call _ | .ret | .ldKey _ => false

/-- The 6 conditional skips (R85). -/
def Instr.isSkip : Instr → Bool
  | .seImm _ _ | .sneImm _ _ | .seReg _ _ | .sneReg _ _ | .skp _ | .sknp _ => true
  | .cls | .ldImm _ _ | .addImm _ _ | .ldReg _ _ | .or _ _ | .and _ _ | .xor _ _ | .addReg _ _ | .sub _ _ => false
  | .shr _ _ | .subn _ _ | .shl _ _ | .rnd _ _ | .storeRegs _ | .loadRegs _ | .ldBcd _ | .addI _ | .ldFont _ => false
  | .ldI _ | .drw _ _ _ | .ldFromDT _ | .ldDT _ | .ldST _ => false
  | .jp _ | .jpV0 _ | .call _ | .ret | .ldKey _ => false

end Sys2Proof

namespace Sys2Proof.Machine

/-- Every general register outside `rs` is unchanged. -/
def RegFrame (rs : List Reg) (s t : State) : Prop := ∀ r : Reg, r ∉ rs → t.getV r = s.getV r

/-- The instruction word of value `n` is the instruction `i`. -/
def EncodedAs (n : Nat) (i : Instr) : Prop := decodeWord (BitVec.ofNat 16 n) = .ok i

/-- Two states that differ at most in the sound timer and the tone output (R17, R171). -/
def SameButSound (s t : State) : Prop := t = { s with st := t.st, tone := t.tone }

/-- Two states that differ at most in the stack slots at or above the depth (R14). -/
def SameButStaleSlots (s t : State) : Prop :=
  t = { s with stack := t.stack } ∧ ∀ j : Fin 16, j.val < s.sp.val → t.stack[j] = s.stack[j]

/-- The instruction completed: the outcome DONE (R8), with PC written to `a` (R85). -/
def DoneAt (a : Word) (t : State) : Prop := t.pc = a ∧ t.status = .done

/-- The fault `f` was taken and nothing else changed (R165). -/
def Faulted (f : Fault) (s t : State) : Prop :=
  t.fault = some f ∧ t.status = .fault f.code f.info ∧ Frame [.fault, .status] s t

/-- `status` repeats FAULT (R31): FAULT(code, info) of the record when there is one, else DONE or AWAIT_KEY. -/
def StatusAgrees (s : State) : Prop :=
  match s.fault with
  | some f => s.status = .fault f.code f.info
  | none => s.status = .done ∨ s.status = .awaitKey

/-- The invariant of the core: memory in its canonical form (so every listed address exists, R40), `status` agreeing with
FAULT (R31), and a pulse only from a completed step, `tone` only with ST run out (R29, R30, R171). -/
def Inv (s : State) : Prop :=
  Memory.wf s.mem = true ∧ StatusAgrees s ∧
    (s.tone = true → s.status = .done ∧ s.st = 0#8) ∧ (s.dispUpdated = true → s.status = .done)

/-- A step that is not halted: FAULT is `None`, and the word at PC decodes to `i` (R80 stages 1, 3 and 4). -/
def RunsNext (s : State) (i : Instr) : Prop := s.fault = none ∧ decodeWord s.fetchWord = .ok i

end Sys2Proof.Machine
end

