-- ==== Sys2Proof/Certificates/Slice0/Obligations.lean ====
section
/-! DEFINITION. The statements for the provers. Each docstring names the rule or the section of spec/ it formalises and, where
a clause rests on a decision of the spec's own (a row D<n> of 92_eei_decisions.md) or on a log entry, says so. -/

open Sys2Proof Sys2Proof.Machine

/-! ## Encoding -/

/-- 30_encoding.md sections 1 and 3 (the patterns: decision D1): decoding the word an instruction is encoded as gives that instruction back, with every
operand at every value, and leaves the bytes after it. -/
def Obligations.DecodeOfEncodeIsTheInstruction : Prop :=
  ∀ (i : Instr) (rest : List Byte),
    decodeWord (encode i) = .ok i ∧ decodeBytes (bytesOfWord (encode i) ++ rest) = .ok (i, rest)

/-- 30_encoding.md sections 1 and 3 (the patterns: decision D1): a word that decodes is the word its instruction is encoded as,
so no bit of a word is dropped (the unused `y` of the shifts included; in groups 0, 5 and 9 by decision D3, the strict
masks). -/
def Obligations.EncodeOfDecodeIsTheWord : Prop :=
  ∀ (w : Word) (i : Instr), decodeWord w = .ok i → encode i = w

/-- 30_encoding.md section 3, the map and its masks (the patterns: decision D1; the strict masks of groups 0, 5 and 9: decision
D3; no row for `SYS nnn`: decision D2): a word decodes exactly when it matches a row, it then is the instruction of that row,
and no word matches two rows. -/
def Obligations.DecoderFollowsTheOpcodeMap : Prop :=
  ∀ w : Word,
    ((∃ i, decodeWord w = .ok i) ↔ ∃ j ∈ oneOfEachRow, j.rowMatches w = true) ∧
      (∀ i, decodeWord w = .ok i → i.rowMatches w = true) ∧
      (∀ i ∈ oneOfEachRow, ∀ j ∈ oneOfEachRow, i.rowMatches w = true → j.rowMatches w = true → i = j)

/-- 30_encoding.md section 4, the table of reserved words: which words the decoder refuses, and under which name (the model's).
Refusing 0nnn (`SYS nnn`) is decision D2; refusing 0xE0 and 0xEE under another second nibble, and 5xyN and 9xyN with N not 0,
is decision D3; the patterns are decision D1. -/
def Obligations.ReservedWordsAreExactlyThoseListed : Prop :=
  ∀ w : Word,
    (decodeWord w = .error .reservedGroup0 ↔ w.toNat ≤ 0x0FFF ∧ w.toNat ≠ 0x00E0 ∧ w.toNat ≠ 0x00EE) ∧
      (decodeWord w = .error .reservedGroup5 ↔ w.toNat / 4096 = 5 ∧ w.toNat % 16 ≠ 0) ∧
      (decodeWord w = .error .reservedGroup8 ↔
        w.toNat / 4096 = 8 ∧ w.toNat % 16 ∈ [0x8, 0x9, 0xA, 0xB, 0xC, 0xD, 0xF]) ∧
      (decodeWord w = .error .reservedGroup9 ↔ w.toNat / 4096 = 9 ∧ w.toNat % 16 ≠ 0) ∧
      (decodeWord w = .error .reservedGroupE ↔ w.toNat / 4096 = 0xE ∧ w.toNat % 256 ∉ [0x9E, 0xA1]) ∧
      (decodeWord w = .error .reservedGroupF ↔
        w.toNat / 4096 = 0xF ∧ w.toNat % 256 ∉ [0x07, 0x0A, 0x15, 0x18, 0x1E, 0x29, 0x33, 0x55, 0x65]) ∧
      decodeWord w ≠ .error .truncated

/-- 95_test_vectors.md parts 1 and 2 (the patterns: decision D1): words of every family decode to the instructions written beside them there. -/
def Obligations.WordsOfTheTestVectorsDecode : Prop :=
  EncodedAs 0x6FAB (.ldImm 0xF#4 0xAB#8) ∧ EncodedAs 0x8017 (.subn 0x0#4 0x1#4) ∧
    EncodedAs 0x2300 (.call 0x300#12) ∧ EncodedAs 0x9230 (.sneReg 0x2#4 0x3#4) ∧
    EncodedAs 0xF355 (.storeRegs 0x3#4) ∧ EncodedAs 0xDF01 (.drw 0xF#4 0x0#4 0x1#4) ∧
    EncodedAs 0xE59E (.skp 0x5#4) ∧ EncodedAs 0xF30A (.ldKey 0x3#4) ∧ EncodedAs 0xF118 (.ldST 0x1#4)

/-! ## The step -/

/-- 40_fetch_decode_dispatch.md, the step: with FAULT `None`, when the two bytes at PC decode to `i`, the step is `exec i` of
the state with the pulses cleared and the snapshot latched, and then the tick if the instruction completed (decision D21). Where the
snapshot comes from is the model's choice (log entry 1). -/
def Obligations.StepRunsTheDecodedInstruction : Prop :=
  ∀ (s : State) (i : Instr), s.fault = none →
    decodeBytes [s.readByte s.pc.toNat, s.readByte (s.pc.toNat + 1)] = .ok (i, []) →
    step s =
      match exec i (s.consumeKeys.opened s.nextKeys) with
      | .next u => .next u.finish
      | .fault r => .fault r
      | .refused r => .refused r

/-- 20_memory.md section 2, byte order, with the effective address of 20_memory.md section 1 (decision D4): the fetched word
has the byte at EA(PC) as its high byte and the byte at EA(PC + 1) as its low byte. -/
def Obligations.FetchIsBigEndianAtTheEffectiveAddress : Prop :=
  ∀ s : State, s.fetchWord.toNat =
    256 * (Memory.read s.mem (s.pc.toNat % 4096)).toNat + (Memory.read s.mem ((s.pc.toNat + 1) % 4096)).toNat

/-- 00_scope.md, step outcome (decisions D15, D20): every step answers a next state whose status is DONE or AWAIT_KEY with no
fault recorded, or repeats the recorded fault. -/
def Obligations.EveryStepHasOneOfThreeOutcomes : Prop :=
  ∀ (keys : Keys) (s : State), ∃ t, stepKeys keys s = .next t ∧
    ((t.status = .done ∧ t.fault = none) ∨ (t.status = .awaitKey ∧ t.fault = none) ∨
      ∃ f, t.fault = some f ∧ t.status = .fault f.code f.info)

/-- 40_fetch_decode_dispatch.md, a word that selects no instruction: DecodeError with the word, and nothing else but the
latch and the outputs (PC not advanced, no tick). Code 1 is decision D20. -/
def Obligations.UndecodableWordRaisesDecodeError : Prop :=
  ∀ (keys : Keys) (s : State) (e : DecodeReject), s.fault = none → decodeWord s.fetchWord = .error e →
    ∃ t, stepKeys keys s = .next t ∧ t.fault = some (.decodeError s.fetchWord) ∧ t.status = .fault 1 s.fetchWord ∧
      t.k = keys ∧ t.tone = false ∧ t.dispUpdated = false ∧
      Frame [.fault, .status, .k, .tone, .dispUpdated] s t

/-- 60_exceptions.md section 2 (decision D20): a step that finds FAULT set does nothing and reports the same fault. -/
def Obligations.HaltedCoreReportsItsFault : Prop :=
  ∀ (keys : Keys) (s : State) (f : Fault), s.fault = some f →
    ∃ t, stepKeys keys s = .next t ∧ t.status = .fault f.code f.info ∧ t.tone = false ∧ t.dispUpdated = false ∧
      Frame [.status, .tone, .dispUpdated] s t

/-- 60_exceptions.md section 2 (decision D20): after a fault any number of steps leaves the fault and all the rest of the
state but the outputs, which report it without a pulse, and the input port, which moves on (log entries 1 and 5). -/
def Obligations.FaultStaysThroughAnyNumberOfSteps : Prop :=
  ∀ (n : Nat) (s : State) (f : Fault), s.fault = some f →
    ∃ t : State, Host.Core.run Sys2Proof.core n s = .next t ∧ t.fault = some f ∧
      (0 < n → t.status = .fault f.code f.info ∧ t.tone = false ∧ t.dispUpdated = false) ∧
      Frame [.status, .tone, .dispUpdated, .keys] s t

/-- 60_exceptions.md section 2 (decision D20): faults are precise: a step that takes one changes nothing but FAULT, the latch
and the outputs; a step never takes RomTooLarge. -/
def Obligations.FaultsArePrecise : Prop :=
  ∀ (keys : Keys) (s t : State) (f : Fault), s.fault = none → stepKeys keys s = .next t → t.fault = some f →
    t.status = .fault f.code f.info ∧ f ≠ .romTooLarge ∧ t.k = keys ∧ t.tone = false ∧ t.dispUpdated = false ∧
      Frame [.fault, .status, .k, .tone, .dispUpdated] s t

/-- 60_exceptions.md sections 1 and 2: the only instructions that take a fault are `CALL` at depth 16 and `RET` at depth 0
(decision D8), each with its own (depth 0 to 16: decision D7). -/
def Obligations.OnlyCallAndRetTakeFaults : Prop :=
  ∀ (i : Instr) (s t : State), exec i s = .next t → t.fault ≠ s.fault →
    ((∃ nnn, i = .call nnn) ∧ s.sp.val = 16 ∧ Faulted .stackOverflow s t) ∨
      (i = .ret ∧ s.sp.val = 0 ∧ Faulted .stackUnderflow s t)

/-- 60_exceptions.md section 5 (decision D21): after an instruction that completed both timers go down by one and stop at 0, and
`tone` is 1 exactly when ST was 1; after one that did not complete nothing ticks. -/
def Obligations.TimersTickOncePerCompletedInstruction : Prop :=
  ∀ (keys : Keys) (s : State) (i : Instr) (u : State), RunsNext s i → exec i (s.opened keys) = .next u →
    ∃ t, stepKeys keys s = .next t ∧ Frame [.dt, .st, .tone] u t ∧
      (if u.status = .done then
        t.dt.toNat = u.dt.toNat - 1 ∧ t.st.toNat = u.st.toNat - 1 ∧ (t.tone = true ↔ u.st.toNat = 1)
      else t.dt = u.dt ∧ t.st = u.st ∧ t.tone = false)

/-! ## The invariant, reset and the ROM load -/

/-- The invariant of the core (memory canonical and inside the address space: 20_memory.md section 1; `status` agreeing with
FAULT: 10_state.md section 8; pulses only from a completed step, `tone` only with ST run out: 60_exceptions.md section 5) is
kept by every step (decisions D20, D21, D22). The canonical form and the outputs as fields are the model's (log entries 5 and
7). -/
def Obligations.StepKeepsInv : Prop := ∀ s t : State, Inv s → step s = .next t → Inv t

/-- The same invariant is kept by every move of the host (10_state.md section 8; 70_reset_and_hazards.md section 2), whatever
the snapshot, the seed and the ROM (decisions D20, D21, D22, D26, D27; log entries 5 and 7). -/
def Obligations.HostMovesKeepInv : Prop := ∀ (m : Move) (s t : State), Inv s → hostMove m s = .next t → Inv t

/-- The same invariant holds at reset (70_reset_and_hazards.md section 1; decisions D20, D22). -/
def Obligations.InvHoldsAtReset : Prop := Inv State.reset

/-- 70_reset_and_hazards.md section 1, the reset table, with the font of the same section (decision D19) and the spec's own
reset values (decisions D7, D12, D20, D22, D23), whatever the seed. -/
def Obligations.ResetLeavesTheResetTable : Prop :=
  ∀ seed : Feed 8, Frame [.rng] State.reset (resetWith seed) ∧ (resetWith seed).rng = seed ∧
    (∀ r : Reg, State.reset.getV r = 0#8) ∧ State.reset.i = 0#16 ∧ State.reset.pc = 0x0200#16 ∧
    State.reset.dt = 0#8 ∧ State.reset.st = 0#8 ∧ State.reset.sp = 0 ∧
    (∀ j : Fin 16, State.reset.stack[j] = 0#16) ∧
    (∀ (cx : Fin 64) (cy : Fin 32), cellAt State.reset.display cx cy = false) ∧
    State.reset.k = 0#16 ∧ State.reset.fault = none ∧ State.reset.status = .done ∧
    State.reset.tone = false ∧ State.reset.dispUpdated = false ∧
    (List.range 80).map (fun a => (State.reset.readByte a).toNat) =
      [0xF0, 0x90, 0x90, 0x90, 0xF0, 0x20, 0x60, 0x20, 0x20, 0x70, 0xF0, 0x10, 0xF0, 0x80, 0xF0] ++
      [0xF0, 0x10, 0xF0, 0x10, 0xF0, 0x90, 0x90, 0xF0, 0x10, 0x10, 0xF0, 0x80, 0xF0, 0x10, 0xF0] ++
      [0xF0, 0x80, 0xF0, 0x90, 0xF0, 0xF0, 0x10, 0x20, 0x40, 0x40, 0xF0, 0x90, 0xF0, 0x90, 0xF0] ++
      [0xF0, 0x90, 0xF0, 0x10, 0xF0, 0xF0, 0x90, 0xF0, 0x90, 0x90, 0xE0, 0x90, 0xE0, 0x90, 0xE0] ++
      [0xF0, 0x80, 0x80, 0x80, 0xF0, 0xE0, 0x90, 0x90, 0x90, 0xE0, 0xF0, 0x80, 0xF0, 0x80, 0xF0] ++
      [0xF0, 0x80, 0xF0, 0x80, 0x80] ∧
    (∀ a : Nat, 0x050 ≤ a → a ≤ 0xFFF → State.reset.readByte a = 0#8)

/-- 70_reset_and_hazards.md section 2, the ROM load after reset. A ROM of at most 3584 bytes (none included: decision D26)
stands verbatim from 0x200, every other byte keeps its reset value, execution starts at 0x200; a longer one sets FAULT and
no byte of memory changes (decision D26). -/
def Obligations.RomLoadPlacesTheRom : Prop :=
  ∀ (seed : Feed 8) (rom : List Byte),
    (rom.length ≤ 3584 →
      (∀ (j : Nat) (h : j < rom.length), (boot seed rom).readByte (0x200 + j) = rom[j]) ∧
        (∀ a : Nat, 0x200 + rom.length ≤ a → a ≤ 0xFFF → (boot seed rom).readByte a = 0#8) ∧
        (∀ a : Nat, a < 0x200 → (boot seed rom).readByte a = State.reset.readByte a) ∧
        DoneAt 0x0200#16 (boot seed rom) ∧ Frame [.mem, .status] (resetWith seed) (boot seed rom)) ∧
      (3584 < rom.length → Faulted .romTooLarge (resetWith seed) (boot seed rom))

/-! ## Arithmetic, logic and registers -/

/-- R92: `LD Vx, kk`. -/
def Obligations.LdImmediateWritesVx : Prop :=
  ∀ (x : Reg) (kk : Byte) (s : State), EncodedAs (0x6000 + 256 * x.toNat + kk.toNat) (.ldImm x kk) ∧
    ∃ t, exec (.ldImm x kk) s = .next t ∧ t.getV x = kk ∧ RegFrame [x] s t ∧ DoneAt (s.pc + 2#16) t ∧
      Frame [.v, .pc, .status] s t

/-- R93: `ADD Vx, kk` wraps modulo 256 and writes no flag. -/
def Obligations.AddImmediateWrapsWithoutFlag : Prop :=
  ∀ (x : Reg) (kk : Byte) (s : State), EncodedAs (0x7000 + 256 * x.toNat + kk.toNat) (.addImm x kk) ∧
    ∃ t, exec (.addImm x kk) s = .next t ∧ (t.getV x).toNat = ((s.getV x).toNat + kk.toNat) % 256 ∧
      RegFrame [x] s t ∧ DoneAt (s.pc + 2#16) t ∧ Frame [.v, .pc, .status] s t

/-- R94: `LD Vx, Vy`. -/
def Obligations.LdRegisterCopiesVy : Prop :=
  ∀ (x y : Reg) (s : State), EncodedAs (0x8000 + 256 * x.toNat + 16 * y.toNat) (.ldReg x y) ∧
    ∃ t, exec (.ldReg x y) s = .next t ∧ t.getV x = s.getV y ∧ RegFrame [x] s t ∧ DoneAt (s.pc + 2#16) t ∧
      Frame [.v, .pc, .status] s t

/-- R95, R96, R97: `OR`, `AND`, `XOR` are bitwise on all eight bits and leave VF alone unless it is Vx. -/
def Obligations.BitwiseOperationsWriteNoFlag : Prop :=
  ∀ (x y : Reg) (s : State),
    (EncodedAs (0x8001 + 256 * x.toNat + 16 * y.toNat) (.or x y) ∧
      ∃ t, exec (.or x y) s = .next t ∧
        (∀ j < 8, (t.getV x).getLsbD j = ((s.getV x).getLsbD j || (s.getV y).getLsbD j)) ∧
        RegFrame [x] s t ∧ DoneAt (s.pc + 2#16) t ∧ Frame [.v, .pc, .status] s t) ∧
      (EncodedAs (0x8002 + 256 * x.toNat + 16 * y.toNat) (.and x y) ∧
        ∃ t, exec (.and x y) s = .next t ∧
          (∀ j < 8, (t.getV x).getLsbD j = ((s.getV x).getLsbD j && (s.getV y).getLsbD j)) ∧
          RegFrame [x] s t ∧ DoneAt (s.pc + 2#16) t ∧ Frame [.v, .pc, .status] s t) ∧
      (EncodedAs (0x8003 + 256 * x.toNat + 16 * y.toNat) (.xor x y) ∧
        ∃ t, exec (.xor x y) s = .next t ∧
          (∀ j < 8, (t.getV x).getLsbD j = ((s.getV x).getLsbD j != (s.getV y).getLsbD j)) ∧
          RegFrame [x] s t ∧ DoneAt (s.pc + 2#16) t ∧ Frame [.v, .pc, .status] s t)

/-- 41_alu.md section 4, `ADD Vx, Vy`: VF is 1 when the exact sum exceeds 255; the result is computed after the flag write,
from the operands re-read (decision D9, seen only when x or y is 0xF). -/
def Obligations.AddRegisterSetsCarryThenAdds : Prop :=
  ∀ (x y : Reg) (s : State),
    let c : Nat := if 255 < (s.getV x).toNat + (s.getV y).toNat then 1 else 0
    let reread : Reg → Nat := fun r => if r = 0xF#4 then c else (s.getV r).toNat
    ∃ t, exec (.addReg x y) s = .next t ∧ (t.getV x).toNat = (reread x + reread y) % 256 ∧
      (x ≠ 0xF#4 → (t.getV 0xF#4).toNat = c) ∧ RegFrame [x, 0xF#4] s t ∧ DoneAt (s.pc + 2#16) t ∧
      Frame [.v, .pc, .status] s t

/-- 41_alu.md section 4, `SUB Vx, Vy`: VF is 1 when Vx >= Vy; the difference is computed after the flag write (decision D9,
seen only when x or y is 0xF). -/
def Obligations.SubSetsNotBorrowThenSubtracts : Prop :=
  ∀ (x y : Reg) (s : State),
    let c : Nat := if (s.getV y).toNat ≤ (s.getV x).toNat then 1 else 0
    let reread : Reg → Nat := fun r => if r = 0xF#4 then c else (s.getV r).toNat
    ∃ t, exec (.sub x y) s = .next t ∧ (t.getV x).toNat = (256 + reread x - reread y) % 256 ∧
      (x ≠ 0xF#4 → (t.getV 0xF#4).toNat = c) ∧ RegFrame [x, 0xF#4] s t ∧ DoneAt (s.pc + 2#16) t ∧
      Frame [.v, .pc, .status] s t

/-- 41_alu.md section 4, `SUBN Vx, Vy`: VF is 1 when Vy >= Vx; the difference Vy - Vx is computed after the flag write
(decision D9, seen only when x or y is 0xF). -/
def Obligations.SubnSetsNotBorrowThenSubtracts : Prop :=
  ∀ (x y : Reg) (s : State),
    let c : Nat := if (s.getV x).toNat ≤ (s.getV y).toNat then 1 else 0
    let reread : Reg → Nat := fun r => if r = 0xF#4 then c else (s.getV r).toNat
    ∃ t, exec (.subn x y) s = .next t ∧ (t.getV x).toNat = (256 + reread y - reread x) % 256 ∧
      (x ≠ 0xF#4 → (t.getV 0xF#4).toNat = c) ∧ RegFrame [x, 0xF#4] s t ∧ DoneAt (s.pc + 2#16) t ∧
      Frame [.v, .pc, .status] s t

/-- 41_alu.md section 4, `SHR Vx`: shifts Vx in place whatever y is; VF is the bit shifted out. That VF ends 0 with x = 0xF is
the spec's own inference ("from the source's stated order"). -/
def Obligations.ShiftRightPutsBitZeroInVF : Prop :=
  ∀ (x y : Reg) (s : State), EncodedAs (0x8006 + 256 * x.toNat + 16 * y.toNat) (.shr x y) ∧
    ∃ t, exec (.shr x y) s = .next t ∧
      (if x = 0xF#4 then t.getV 0xF#4 = 0#8
      else (t.getV x).toNat = (s.getV x).toNat / 2 ∧ (t.getV 0xF#4).toNat = (s.getV x).toNat % 2) ∧
      RegFrame [x, 0xF#4] s t ∧ DoneAt (s.pc + 2#16) t ∧ Frame [.v, .pc, .status] s t

/-- 41_alu.md section 4, `SHL Vx`: shifts Vx in place whatever y is; VF is the bit shifted out. That VF ends 2 or 0 with
x = 0xF is the spec's own inference ("from the source's stated order"). -/
def Obligations.ShiftLeftPutsBitSevenInVF : Prop :=
  ∀ (x y : Reg) (s : State), EncodedAs (0x800E + 256 * x.toNat + 16 * y.toNat) (.shl x y) ∧
    ∃ t, exec (.shl x y) s = .next t ∧
      (if x = 0xF#4 then (t.getV 0xF#4).toNat = if 0x80 ≤ (s.getV 0xF#4).toNat then 2 else 0
      else (t.getV x).toNat = 2 * (s.getV x).toNat % 256 ∧ (t.getV 0xF#4).toNat = (s.getV x).toNat / 128) ∧
      RegFrame [x, 0xF#4] s t ∧ DoneAt (s.pc + 2#16) t ∧ Frame [.v, .pc, .status] s t

/-- 41_alu.md section 5, `RND Vx, kk`: the drawn byte AND kk, one draw per execution also when kk is 0 (decision D18). The
byte is a free value unless the host has supplied one (log entry 2): the statement holds for every byte. -/
def Obligations.RandomByteIsMaskedAndDrawnOnce : Prop :=
  ∀ (x : Reg) (kk : Byte) (s : State),
    ∃ t, exec (.rnd x kk) s = .next t ∧
      (∀ j < 8, (t.getV x).getLsbD j = (s.rndByte.getLsbD j && kk.getLsbD j)) ∧
      (∀ b bs n, s.rng = ⟨b :: bs, n⟩ → s.rndByte = b ∧ t.rng = ⟨bs, n⟩) ∧
      (∀ n, s.rng = ⟨[], n⟩ → s.rndByte = Config.rndByte n ∧ t.rng = ⟨[], n + 1⟩) ∧
      RegFrame [x] s t ∧ DoneAt (s.pc + 2#16) t ∧ Frame [.rng, .v, .pc, .status] s t

/-! ## Control flow -/

/-- R110: `JP nnn`. -/
def Obligations.JumpWritesTheAddress : Prop :=
  ∀ (nnn : Addr12) (s : State), EncodedAs (0x1000 + nnn.toNat) (.jp nnn) ∧
    ∃ t, exec (.jp nnn) s = .next t ∧ t.pc.toNat = nnn.toNat ∧ t.status = .done ∧ Frame [.pc, .status] s t

/-- 42_control_flow.md section 2, `JP V0, nnn`: the sum is held in PC unreduced (what a fetch then reads is decision D4). -/
def Obligations.IndexedJumpAddsV0 : Prop :=
  ∀ (nnn : Addr12) (s : State),
    ∃ t, exec (.jpV0 nnn) s = .next t ∧ t.pc.toNat = nnn.toNat + (s.getV 0x0#4).toNat ∧ t.status = .done ∧
      Frame [.pc, .status] s t

/-- R112: `CALL nnn` pushes PC + 2 and jumps, or takes StackOverflow at depth 16: nothing else changes, and no timer ticks in
that step. -/
def Obligations.CallPushesTheReturnAddress : Prop :=
  ∀ (nnn : Addr12) (s : State), EncodedAs (0x2000 + nnn.toNat) (.call nnn) ∧
    (∀ h : s.sp.val < 16, ∃ t, exec (.call nnn) s = .next t ∧ t.stack[s.sp.val] = s.pc + 2#16 ∧
      (∀ j : Fin 16, j.val ≠ s.sp.val → t.stack[j] = s.stack[j]) ∧ t.sp.val = s.sp.val + 1 ∧
      t.pc.toNat = nnn.toNat ∧ t.status = .done ∧ Frame [.stack, .sp, .pc, .status] s t) ∧
    (s.sp.val = 16 → ∃ t, exec (.call nnn) s = .next t ∧ Faulted .stackOverflow s t) ∧
    (∀ keys : Keys, s.sp.val = 16 → RunsNext s (.call nnn) →
      ∃ t, stepKeys keys s = .next t ∧ t.fault = some .stackOverflow ∧ t.dt = s.dt ∧ t.st = s.st)

/-- 42_control_flow.md section 3, `RET`: pops into PC; at depth 0 it takes StackUnderflow (decision D8) and changes nothing
else (SP as a depth counter: decision D7). -/
def Obligations.ReturnPopsIntoPC : Prop :=
  ∀ s : State,
    (∀ h : 0 < s.sp.val, ∃ t, exec .ret s = .next t ∧ t.sp.val = s.sp.val - 1 ∧
      DoneAt (s.stack[s.sp.val - 1]'(by omega)) t ∧ Frame [.sp, .pc, .status] s t) ∧
      (s.sp.val = 0 → ∃ t, exec .ret s = .next t ∧ Faulted .stackUnderflow s t)

/-- 95_test_vectors.md part 1, the stack round trip: `CALL` and then `RET` lead to the address after the call at the depth
before it, and every slot below that depth is as it was (SP as a depth counter: decision D7). -/
def Obligations.CallThenReturnComesBack : Prop :=
  ∀ (nnn : Addr12) (s : State), s.sp.val < 16 →
    ∃ u t, exec (.call nnn) s = .next u ∧ exec .ret u = .next t ∧ DoneAt (s.pc + 2#16) t ∧ t.sp = s.sp ∧
      (∀ j : Fin 16, j.val ≠ s.sp.val → t.stack[j] = s.stack[j]) ∧ Frame [.stack, .pc, .status] s t

/-- R114, R115: the skips on an immediate. -/
def Obligations.SkipsCompareVxWithImmediate : Prop :=
  ∀ (x : Reg) (kk : Byte) (s : State),
    (EncodedAs (0x3000 + 256 * x.toNat + kk.toNat) (.seImm x kk) ∧
      ∃ t, exec (.seImm x kk) s = .next t ∧
        DoneAt (if (s.getV x).toNat = kk.toNat then s.pc + 4#16 else s.pc + 2#16) t ∧ Frame [.pc, .status] s t) ∧
      (EncodedAs (0x4000 + 256 * x.toNat + kk.toNat) (.sneImm x kk) ∧
        ∃ t, exec (.sneImm x kk) s = .next t ∧
          DoneAt (if (s.getV x).toNat = kk.toNat then s.pc + 2#16 else s.pc + 4#16) t ∧ Frame [.pc, .status] s t)

/-- R116, R117: the skips on a register; with a low nibble that is not 0 their words are reserved. -/
def Obligations.SkipsCompareVxWithVy : Prop :=
  ∀ (x y : Reg) (s : State),
    (EncodedAs (0x5000 + 256 * x.toNat + 16 * y.toNat) (.seReg x y) ∧
      ∃ t, exec (.seReg x y) s = .next t ∧
        DoneAt (if (s.getV x).toNat = (s.getV y).toNat then s.pc + 4#16 else s.pc + 2#16) t ∧
        Frame [.pc, .status] s t) ∧
      (EncodedAs (0x9000 + 256 * x.toNat + 16 * y.toNat) (.sneReg x y) ∧
        ∃ t, exec (.sneReg x y) s = .next t ∧
          DoneAt (if (s.getV x).toNat = (s.getV y).toNat then s.pc + 2#16 else s.pc + 4#16) t ∧
          Frame [.pc, .status] s t) ∧
      (∀ n : Nibble, n ≠ 0x0#4 →
        decodeWord (BitVec.ofNat 16 (0x5000 + 256 * x.toNat + 16 * y.toNat + n.toNat)) = .error .reservedGroup5 ∧
          decodeWord (BitVec.ofNat 16 (0x9000 + 256 * x.toNat + 16 * y.toNat + n.toNat)) = .error .reservedGroup9)

/-! ## Memory block operations and the index register -/

/-- R120: `LD [I], Vx` stores V0 to Vx at I, I+1, ...; every other byte, I and the registers are unchanged. -/
def Obligations.StoreWritesV0ToVxAtI : Prop :=
  ∀ (x : Reg) (s : State), EncodedAs (0xF055 + 256 * x.toNat) (.storeRegs x) ∧
    ∃ t, exec (.storeRegs x) s = .next t ∧
      (∀ r : Reg, r.toNat ≤ x.toNat → t.readByte (s.dataAddr r.toNat) = s.getV r) ∧
      (∀ a : Nat, (∀ r : Reg, r.toNat ≤ x.toNat → a % 4096 ≠ s.dataAddr r.toNat % 4096) →
        t.readByte a = s.readByte a) ∧
      DoneAt (s.pc + 2#16) t ∧ Frame [.mem, .pc, .status] s t

/-- R121: `LD Vx, [I]` loads V0 to Vx from I, I+1, ...; the registers above Vx, I and memory are unchanged. -/
def Obligations.LoadReadsV0ToVxFromI : Prop :=
  ∀ (x : Reg) (s : State), EncodedAs (0xF065 + 256 * x.toNat) (.loadRegs x) ∧
    ∃ t, exec (.loadRegs x) s = .next t ∧
      (∀ r : Reg, t.getV r = if r.toNat ≤ x.toNat then s.readByte (s.dataAddr r.toNat) else s.getV r) ∧
      DoneAt (s.pc + 2#16) t ∧ Frame [.v, .pc, .status] s t

/-- R122: `LD B, Vx` stores the three decimal digits of Vx at I, I+1, I+2 and no other byte. -/
def Obligations.BcdStoresTheThreeDigits : Prop :=
  ∀ (x : Reg) (s : State), EncodedAs (0xF033 + 256 * x.toNat) (.ldBcd x) ∧
    ∃ t, exec (.ldBcd x) s = .next t ∧
      (t.readByte (s.dataAddr 0)).toNat = (s.getV x).toNat / 100 ∧
      (t.readByte (s.dataAddr 1)).toNat = (s.getV x).toNat / 10 % 10 ∧
      (t.readByte (s.dataAddr 2)).toNat = (s.getV x).toNat % 10 ∧
      (∀ a : Nat, (∀ k < 3, a % 4096 ≠ s.dataAddr k % 4096) → t.readByte a = s.readByte a) ∧
      DoneAt (s.pc + 2#16) t ∧ Frame [.mem, .pc, .status] s t

/-- 43_memory_block.md section 4: `ADD I, Vx` keeps 16 bits and writes no flag (decision D6); `LD F, Vx` multiplies the whole
register by 5 (decision D13). -/
def Obligations.IndexArithmeticKeepsSixteenBits : Prop :=
  ∀ (x : Reg) (s : State),
    (∃ t, exec (.addI x) s = .next t ∧ t.i.toNat = (s.i.toNat + (s.getV x).toNat) % 65536 ∧
      DoneAt (s.pc + 2#16) t ∧ Frame [.i, .pc, .status] s t) ∧
      (∃ t, exec (.ldFont x) s = .next t ∧ t.i.toNat = 5 * (s.getV x).toNat ∧
        DoneAt (s.pc + 2#16) t ∧ Frame [.i, .pc, .status] s t)

/-- R125: `LD I, nnn`. -/
def Obligations.LdIndexWritesTheAddress : Prop :=
  ∀ (nnn : Addr12) (s : State), EncodedAs (0xA000 + nnn.toNat) (.ldI nnn) ∧
    ∃ t, exec (.ldI nnn) s = .next t ∧ t.i.toNat = nnn.toNat ∧ DoneAt (s.pc + 2#16) t ∧
      Frame [.i, .pc, .status] s t

/-- 20_memory.md section 3, instruction-fetch coherence, an inference the spec marks as its own ([derived], from the one flat
memory and its ordering): a byte stored by `LD [I], Vx` or `LD B, Vx` is the byte the very next fetch reads there, with no
action between, as its high or as its low byte (at the effective address: decision D4). -/
def Obligations.StoreIsSeenByTheNextFetch : Prop :=
  (∀ (x r : Reg) (s t : State), r.toNat ≤ x.toNat → exec (.storeRegs x) s = .next t →
    (t.pc.toNat % 4096 = s.dataAddr r.toNat % 4096 → t.fetchWord.toNat / 256 = (s.getV r).toNat) ∧
      ((t.pc.toNat + 1) % 4096 = s.dataAddr r.toNat % 4096 → t.fetchWord.toNat % 256 = (s.getV r).toNat)) ∧
    (∀ (x : Reg) (s t : State) (k : Nat), k < 3 → exec (.ldBcd x) s = .next t →
      let digit : Nat := if k = 0 then (s.getV x).toNat / 100
        else if k = 1 then (s.getV x).toNat / 10 % 10 else (s.getV x).toNat % 10
      (t.pc.toNat % 4096 = s.dataAddr k % 4096 → t.fetchWord.toNat / 256 = digit) ∧
        ((t.pc.toNat + 1) % 4096 = s.dataAddr k % 4096 → t.fetchWord.toNat % 256 = digit))

/-- 43_memory_block.md sections 1 and 2: storing V0 to Vx and loading them again leaves every register as it was, since I is
unchanged (decision D17). -/
def Obligations.StoreThenLoadRestoresTheRegisters : Prop :=
  ∀ (x : Reg) (s u : State), exec (.storeRegs x) s = .next u →
    ∃ t, exec (.loadRegs x) u = .next t ∧ (∀ r : Reg, t.getV r = s.getV r) ∧ Frame [.mem, .pc, .status] s t

/-! ## Display -/

/-- R130: `CLS` sets every cell to 0, pulses `disp_updated` and leaves VF, memory and the registers alone. -/
def Obligations.ClearSetsEveryCellToZero : Prop :=
  ∀ s : State, EncodedAs 0x00E0 .cls ∧
    ∃ t, exec .cls s = .next t ∧ (∀ (cx : Fin 64) (cy : Fin 32), cellAt t.display cx cy = false) ∧
      t.dispUpdated = true ∧ DoneAt (s.pc + 2#16) t ∧ Frame [.display, .dispUpdated, .pc, .status] s t

/-- 44_display.md, `DRW Vx, Vy, n`: the cell under sprite bit (row, col) is XORed with it, every other cell is
unchanged, VF is 1 exactly when a set cell met a set bit, 0 otherwise. The coordinates are those on entry (decision D10), bit 7
is leftmost (decision D11), the sprite bytes are read at effective addresses (decision D4). -/
def Obligations.DrawXorsTheSpriteAndReportsCollision : Prop :=
  ∀ (x y : Reg) (n : Nibble) (s : State),
    let bit : Nat → Nat → Bool := fun row col => (s.readByte (s.dataAddr row)).getLsbD (7 - col)
    let at_ : Nat → Nat → Fin 64 → Fin 32 → Prop := fun row col cx cy =>
      row < n.toNat ∧ col < 8 ∧ cx.val = ((s.getV x).toNat + col) % 64 ∧ cy.val = ((s.getV y).toNat + row) % 32
    ∃ t, exec (.drw x y n) s = .next t ∧
      (∀ row col cx cy, at_ row col cx cy →
        cellAt t.display cx cy = (cellAt s.display cx cy != bit row col)) ∧
      (∀ cx cy, (∀ row col, ¬ at_ row col cx cy) → cellAt t.display cx cy = cellAt s.display cx cy) ∧
      ((∃ row col cx cy, at_ row col cx cy ∧ bit row col = true ∧ cellAt s.display cx cy = true) →
        t.getV 0xF#4 = 1#8) ∧
      ((∀ row col cx cy, at_ row col cx cy → ¬ (bit row col = true ∧ cellAt s.display cx cy = true)) →
        t.getV 0xF#4 = 0#8) ∧
      RegFrame [0xF#4] s t ∧ t.dispUpdated = true ∧ DoneAt (s.pc + 2#16) t ∧
      Frame [.v, .display, .dispUpdated, .pc, .status] s t

/-- 95_test_vectors.md part 1 (the draw example), for every sprite: drawing the same sprite twice at the same place restores the
display (x and y not VF, which the first draw writes; the coordinates as in decision D10, addresses as in D4). -/
def Obligations.DrawTwiceRestoresTheDisplay : Prop :=
  ∀ (x y : Reg) (n : Nibble) (s u : State), x ≠ 0xF#4 → y ≠ 0xF#4 → exec (.drw x y n) s = .next u →
    ∃ t, exec (.drw x y n) u = .next t ∧
      (∀ (cx : Fin 64) (cy : Fin 32), cellAt t.display cx cy = cellAt s.display cx cy) ∧
      Frame [.v, .display, .dispUpdated, .pc, .status] s t

/-- 44_display.md, its last rule: only `DRW` and `CLS` write the display: no other instruction, no tick, no halted or undecodable
step, no ROM load; reset clears it (decisions D12, D23); and no instruction reads it but `DRW`, through VF alone. -/
def Obligations.OnlyDrawAndClearWriteTheDisplay : Prop :=
  (∀ (keys : Keys) (s t : State), stepKeys keys s = .next t →
    (¬ RunsNext s .cls ∧ ∀ x y n, ¬ RunsNext s (.drw x y n)) → Part.same .display s t) ∧
    (∀ (rom : List Byte) (s : State), Part.same .display s (romLoad rom s)) ∧
    (∀ (seed : Feed 8) (cx : Fin 64) (cy : Fin 32), cellAt (resetWith seed).display cx cy = false) ∧
    (∀ (i : Instr) (s t t' : State) (d : Cells), exec i s = .next t → exec i { s with display := d } = .next t' →
      Frame [.display, .v] t t' ∧ RegFrame [0xF#4] t t' ∧
        ((∀ x y n, i ≠ .drw x y n) → Part.same .v t t'))

/-! ## Input -/

/-- 45_input.md, `SKP Vx` and `SKNP Vx`: they test the latch at the low nibble of Vx (decision D14). -/
def Obligations.KeySkipsTestTheLatch : Prop :=
  ∀ (x : Reg) (s : State),
    (∃ t, exec (.skp x) s = .next t ∧
      DoneAt (if s.k.getLsbD ((s.getV x).toNat % 16) = true then s.pc + 4#16 else s.pc + 2#16) t ∧
      Frame [.pc, .status] s t) ∧
      (∃ t, exec (.sknp x) s = .next t ∧
        DoneAt (if s.k.getLsbD ((s.getV x).toNat % 16) = true then s.pc + 2#16 else s.pc + 4#16) t ∧
        Frame [.pc, .status] s t)

/-- 45_input.md, `LD Vx, K` with a key down: Vx becomes the least pressed index (decision D16). -/
def Obligations.KeyWaitCompletesWithTheLeastKey : Prop :=
  ∀ (x : Reg) (s : State) (j : Nat), j < 16 → s.k.getLsbD j = true → (∀ l < j, s.k.getLsbD l = false) →
    ∃ t, exec (.ldKey x) s = .next t ∧ (t.getV x).toNat = j ∧ RegFrame [x] s t ∧ DoneAt (s.pc + 2#16) t ∧
      Frame [.v, .pc, .status] s t

/-- 45_input.md and 60_exceptions.md section 7 (decision D15): with no key down `LD Vx, K` changes nothing and reports
AWAIT_KEY, and its step changes nothing but the latch and the outputs: no tick, no tone. -/
def Obligations.KeyWaitChangesNothingWithNoKeyDown : Prop :=
  ∀ (x : Reg) (s : State),
    ((∀ j < 16, s.k.getLsbD j = false) →
      ∃ t, exec (.ldKey x) s = .next t ∧ t.status = .awaitKey ∧ Frame [.status] s t) ∧
      (RunsNext s (.ldKey x) →
        ∃ t, stepKeys 0#16 s = .next t ∧ t.status = .awaitKey ∧ t.k = 0#16 ∧ t.tone = false ∧
          t.dispUpdated = false ∧ Frame [.status, .k, .tone, .dispUpdated] s t)

/-- 10_state.md section 6, the keypad latch (decision D23 for its reset value): what K held before a step is never observed. -/
def Obligations.OldKeypadLatchIsNeverObserved : Prop :=
  ∀ (keys k' : Keys) (s : State), s.fault = none → stepKeys keys { s with k := k' } = stepKeys keys s

/-! ## Timers -/

/-- 46_timers.md, `LD Vx, DT`: it reads the value the previous step left. That the tick of its own step comes after it, so
that Vx is then DT + 1 unless it is 0, is the spec's own inference from the order of the step (decision D21). -/
def Obligations.LdFromDelayTimerReadsBeforeTheTick : Prop :=
  (∀ (x : Reg) (s : State), EncodedAs (0xF007 + 256 * x.toNat) (.ldFromDT x) ∧
    ∃ t, exec (.ldFromDT x) s = .next t ∧ t.getV x = s.dt ∧ RegFrame [x] s t ∧ DoneAt (s.pc + 2#16) t ∧
      Frame [.v, .pc, .status] s t) ∧
    (∀ (keys : Keys) (x : Reg) (s : State), RunsNext s (.ldFromDT x) →
      ∃ t, stepKeys keys s = .next t ∧ t.getV x = s.dt ∧ t.dt.toNat = s.dt.toNat - 1)

/-- 46_timers.md, `LD DT, Vx` (decision D21 for the rate of the tick): DT takes Vx, and at the end of the same step one less,
or 0. -/
def Obligations.LdDelayTimerIsTickedInItsOwnStep : Prop :=
  (∀ (x : Reg) (s : State),
    ∃ t, exec (.ldDT x) s = .next t ∧ t.dt = s.getV x ∧ DoneAt (s.pc + 2#16) t ∧ Frame [.dt, .pc, .status] s t) ∧
    (∀ (keys : Keys) (x : Reg) (s : State), RunsNext s (.ldDT x) →
      ∃ t, stepKeys keys s = .next t ∧ t.dt.toNat = (s.getV x).toNat - 1 ∧ t.pc = s.pc + 2#16)

/-- 46_timers.md, `LD ST, Vx` (decision D21 for the rate of the tick): ST takes Vx; the tick of the same step leaves one less,
or 0, and fires `tone` exactly when Vx is 1. -/
def Obligations.LdSoundTimerFiresToneAtOne : Prop :=
  (∀ (x : Reg) (s : State),
    ∃ t, exec (.ldST x) s = .next t ∧ t.st = s.getV x ∧ DoneAt (s.pc + 2#16) t ∧ Frame [.st, .pc, .status] s t) ∧
    (∀ (keys : Keys) (x : Reg) (s : State), RunsNext s (.ldST x) →
      ∃ t, stepKeys keys s = .next t ∧ t.st.toNat = (s.getV x).toNat - 1 ∧
        (t.tone = true ↔ (s.getV x).toNat = 1) ∧ t.pc = s.pc + 2#16)

/-- 10_state.md section 5 and 60_exceptions.md section 5: no program can observe the sound timer: two cores that differ in it
alone differ after any step in it and `tone` alone (the tick: decision D21). -/
def Obligations.SoundTimerIsNotObservable : Prop :=
  ∀ (keys : Keys) (s t s' : State), SameButSound s t → stepKeys keys s = .next s' →
    ∃ t', stepKeys keys t = .next t' ∧ SameButSound s' t'

/-! ## Rules about all instructions -/

/-- 10_state.md section 9 (a summary the spec marks as derived): an instruction changes only the parts of its row, and of these
only the general registers, the bytes of memory (`LD [I], Vx`: I to I + x; `LD B, Vx`: I to I + 2, at effective addresses,
decision D4) and the stack slots (`CALL`: S[SP]) of its row; one that does not complete (a wait, or a fault taken) changes
nothing but FAULT and `status`. VF is written by no other instruction than the flag writers unless it is an operand
(10_state.md section 1). -/
def Obligations.InstructionsWriteOnlyTheirWriteSet : Prop :=
  ∀ (i : Instr) (s t : State), exec i s = .next t →
    Frame i.writes s t ∧ (∀ r : Reg, i.writesReg r = false → t.getV r = s.getV r) ∧
      (∀ a : Nat, ¬ i.writesByte s a → t.readByte a = s.readByte a) ∧
      (∀ j : Fin 16, ¬ i.writesSlot s j → t.stack[j] = s.stack[j]) ∧
      (t.status ≠ .done → Frame [.fault, .status] s t)

/-- 40_fetch_decode_dispatch.md, PC advance (modulo 65536: decision D5): 23 instructions go to PC + 2, the 6 skips to PC + 2 or
PC + 4, `JP`, `JP V0`, `CALL` and `RET` (with room on the stack, with an address on it) to their absolute target, `LD Vx, K`
with a key down to PC + 2 (decision D15), and an instruction that does not complete leaves PC alone. -/
def Obligations.EveryInstructionAdvancesPCAsItsClassSays : Prop :=
  (oneOfEachRow.filter Instr.isSequential).length = 23 ∧ (oneOfEachRow.filter Instr.isSkip).length = 6 ∧
    ∀ (i : Instr) (s t : State), exec i s = .next t →
      (i.isSequential = true → DoneAt (s.pc + 2#16) t) ∧
        (i.isSkip = true → DoneAt (s.pc + 2#16) t ∨ DoneAt (s.pc + 4#16) t) ∧
        (∀ nnn, i = .jp nnn → DoneAt (BitVec.ofNat 16 nnn.toNat) t) ∧
        (∀ nnn, i = .jpV0 nnn → DoneAt (BitVec.ofNat 16 (nnn.toNat + (s.getV 0x0#4).toNat)) t) ∧
        (∀ nnn, i = .call nnn → s.sp.val < 16 → DoneAt (BitVec.ofNat 16 nnn.toNat) t) ∧
        (i = .ret → ∀ _h : 0 < s.sp.val, DoneAt (s.stack[s.sp.val - 1]'(by omega)) t) ∧
        (∀ x, i = .ldKey x → s.k ≠ 0#16 → DoneAt (s.pc + 2#16) t) ∧
        (t.status ≠ .done → t.pc = s.pc)

/-- 10_state.md section 4 (decision D7 for SP as a depth counter, D23 for the slots' reset value): the contents of a slot at or above the depth are never
observed: two cores that differ in such slots alone differ in such slots alone after any step. -/
def Obligations.StaleStackSlotsAreNotObservable : Prop :=
  ∀ (keys : Keys) (s t s' : State), SameButStaleSlots s t → stepKeys keys s = .next s' →
    ∃ t', stepKeys keys t = .next t' ∧ SameButStaleSlots s' t'
end

