-- ==== Sys2Proof/Laws/Memory.lean ====
section
/-! SUPPORT. What the memory operations do: a read after a write, the canonical form kept by every operation, and the canonical
form unique (equal bytes, equal lists). -/

namespace Sys2Proof.Machine

theorem ea_lt (a : Nat) : ea a < Config.memSize := Nat.mod_lt _ (by decide)

@[simp] theorem ea_ea (a : Nat) : ea (ea a) = ea a := Nat.mod_mod _ _

@[simp] theorem Memory.read_nil (a : Nat) : Memory.read [] a = unlistedByte a := rfl

theorem Memory.read_cons (c : Host.Cell) (m : List Host.Cell) (a : Nat) :
    Memory.read (c :: m) a = if a = c.1 then c.2 else Memory.read m a := rfl

theorem Memory.read_erase (m : List Host.Cell) (a x : Nat) :
    Memory.read (Memory.erase m a) x = if x = a then unlistedByte a else Memory.read m x := by
  induction m with
  | nil => simp only [Memory.erase, List.filter_nil, Memory.read_nil]; split <;> simp_all
  | cons c m ih =>
    unfold Memory.erase at ih ⊢
    by_cases h : c.1 = a
    · rw [List.filter_cons_of_neg (by simp [h]), ih, Memory.read_cons, h]
      split <;> simp_all
    · rw [List.filter_cons_of_pos (by simp [h]), Memory.read_cons, ih, Memory.read_cons]
      by_cases hx : x = c.1 <;> simp_all

theorem Memory.read_insert (m : List Host.Cell) (a : Nat) (b : Byte) (ha : ∀ c ∈ m, c.1 ≠ a) (x : Nat) :
    Memory.read (Memory.insert m a b) x = if x = a then b else Memory.read m x := by
  induction m with
  | nil => rfl
  | cons c m ih =>
    have hc := ha c List.mem_cons_self
    unfold Memory.insert
    split
    · rfl
    · rw [Memory.read_cons, ih fun d hd => ha d (List.mem_cons_of_mem _ hd), Memory.read_cons]
      by_cases hx : x = c.1 <;> simp_all

theorem Memory.erase_ne (m : List Host.Cell) (a : Nat) : ∀ c ∈ Memory.erase m a, c.1 ≠ a := by
  intro c hc; simpa [Memory.erase] using (List.mem_filter.mp hc).2

/-- A read after a write. It holds of every list, canonical or not. -/
theorem Memory.read_write (m : List Host.Cell) (a : Nat) (b : Byte) (x : Nat) :
    Memory.read (Memory.write m a b) x = if x = a then b else Memory.read m x := by
  unfold Memory.write
  split
  · next h => rw [Memory.read_erase, h]
  · rw [Memory.read_insert _ _ _ (Memory.erase_ne m a), Memory.read_erase]
    split <;> rfl

theorem Memory.wfFrom_cons {lo : Nat} {c : Host.Cell} {m : List Host.Cell} :
    Memory.wfFrom lo (c :: m) = true ↔
      lo ≤ c.1 ∧ c.1 < Config.memSize ∧ c.2 ≠ unlistedByte c.1 ∧ Memory.wfFrom (c.1 + 1) m = true := by
  simp [Memory.wfFrom, and_assoc]

theorem Memory.wfFrom_mono {lo lo' : Nat} {m : List Host.Cell} (h : lo' ≤ lo) (hm : Memory.wfFrom lo m = true) :
    Memory.wfFrom lo' m = true := by
  cases m with
  | nil => rfl
  | cons c m =>
    rw [Memory.wfFrom_cons] at hm ⊢
    exact ⟨h.trans hm.1, hm.2⟩

theorem Memory.wfFrom_erase {lo : Nat} {m : List Host.Cell} (a : Nat) (hm : Memory.wfFrom lo m = true) :
    Memory.wfFrom lo (Memory.erase m a) = true := by
  induction m generalizing lo with
  | nil => rfl
  | cons c m ih =>
    have h := Memory.wfFrom_cons.mp hm
    have ht := ih h.2.2.2
    unfold Memory.erase at ht ⊢
    by_cases hc : c.1 = a
    · rw [List.filter_cons_of_neg (by simp [hc])]
      exact Memory.wfFrom_mono (by omega) ht
    · rw [List.filter_cons_of_pos (by simp [hc]), Memory.wfFrom_cons]
      exact ⟨h.1, h.2.1, h.2.2.1, ht⟩

theorem Memory.wfFrom_insert {lo a : Nat} {b : Byte} {m : List Host.Cell} (hlo : lo ≤ a) (ha : a < Config.memSize)
    (hb : b ≠ unlistedByte a) (hm : Memory.wfFrom lo m = true) (hne : ∀ c ∈ m, c.1 ≠ a) :
    Memory.wfFrom lo (Memory.insert m a b) = true := by
  induction m generalizing lo with
  | nil => exact Memory.wfFrom_cons.mpr ⟨hlo, ha, hb, rfl⟩
  | cons c m ih =>
    have h := Memory.wfFrom_cons.mp hm
    have hc := hne c List.mem_cons_self
    unfold Memory.insert
    split
    · exact Memory.wfFrom_cons.mpr ⟨hlo, ha, hb, Memory.wfFrom_cons.mpr ⟨by omega, h.2⟩⟩
    · exact Memory.wfFrom_cons.mpr ⟨h.1, h.2.1, h.2.2.1,
        ih (by omega) h.2.2.2 fun d hd => hne d (List.mem_cons_of_mem _ hd)⟩

/-- A write inside the address space keeps the canonical form. -/
theorem Memory.wf_write {m : List Host.Cell} {a : Nat} (b : Byte) (ha : a < Config.memSize) (hm : Memory.wf m = true) :
    Memory.wf (Memory.write m a b) = true := by
  unfold Memory.wf Memory.write at *
  split
  · exact Memory.wfFrom_erase a hm
  · next hb => exact Memory.wfFrom_insert (Nat.zero_le _) ha hb (Memory.wfFrom_erase a hm) (Memory.erase_ne m a)

theorem Memory.wf_writeBytes {m : List Host.Cell} (a : Nat) (bs : List Byte) (hm : Memory.wf m = true) :
    Memory.wf (Memory.writeBytes m a bs) = true := by
  induction bs generalizing m a with
  | nil => exact hm
  | cons b bs ih => exact ih (a + 1) (Memory.wf_write b (ea_lt a) hm)

theorem Memory.read_of_wfFrom_lt {lo : Nat} {m : List Host.Cell} (hm : Memory.wfFrom lo m = true) {a : Nat} (ha : a < lo) :
    Memory.read m a = unlistedByte a := by
  induction m generalizing lo with
  | nil => rfl
  | cons c m ih =>
    have h := Memory.wfFrom_cons.mp hm
    rw [Memory.read_cons, if_neg (by omega)]
    exact ih h.2.2.2 (by omega)

theorem Memory.read_of_memSize_le {lo : Nat} {m : List Host.Cell} (hm : Memory.wfFrom lo m = true) {a : Nat}
    (ha : Config.memSize ≤ a) : Memory.read m a = unlistedByte a := by
  induction m generalizing lo with
  | nil => rfl
  | cons c m ih =>
    have h := Memory.wfFrom_cons.mp hm
    rw [Memory.read_cons, if_neg (by omega)]
    exact ih h.2.2.2

/-- The canonical form is canonical: two canonical memories that read alike are the same list. -/
theorem Memory.eq_of_read_eq {lo : Nat} {m m' : List Host.Cell} (hm : Memory.wfFrom lo m = true)
    (hm' : Memory.wfFrom lo m' = true) (h : ∀ a, Memory.read m a = Memory.read m' a) : m = m' := by
  induction m generalizing lo m' with
  | nil =>
    cases m' with
    | nil => rfl
    | cons c m' =>
      have hc := Memory.wfFrom_cons.mp hm'
      exact absurd ((h c.1).symm.trans rfl) (by simpa [Memory.read_cons] using hc.2.2.1)
  | cons c m ih =>
    have hc := Memory.wfFrom_cons.mp hm
    cases m' with
    | nil => exact absurd (h c.1) (by simpa [Memory.read_cons] using hc.2.2.1)
    | cons d m' =>
      have hd := Memory.wfFrom_cons.mp hm'
      have key : c.1 = d.1 := by
        rcases Nat.lt_trichotomy c.1 d.1 with hlt | heq | hgt
        · refine absurd (h c.1) ?_
          rw [Memory.read_cons, if_pos rfl, Memory.read_cons, if_neg (by omega),
            Memory.read_of_wfFrom_lt hd.2.2.2 (by omega)]
          exact hc.2.2.1
        · exact heq
        · refine absurd (h d.1) ?_
          rw [Memory.read_cons, if_neg (by omega), Memory.read_of_wfFrom_lt hc.2.2.2 (by omega),
            Memory.read_cons, if_pos rfl]
          exact hd.2.2.1.symm
      have hv : c.2 = d.2 := by
        have := h c.1
        rwa [Memory.read_cons, if_pos rfl, Memory.read_cons, if_pos key] at this
      have hcd : c = d := Prod.ext key hv
      subst hcd
      congr 1
      refine ih hc.2.2.2 hd.2.2.2 fun a => ?_
      by_cases ha : a = c.1
      · rw [ha, Memory.read_of_wfFrom_lt hc.2.2.2 (by omega), Memory.read_of_wfFrom_lt hd.2.2.2 (by omega)]
      · simpa [Memory.read_cons, ha] using h a

end Sys2Proof.Machine
end

