-- ==== Sys2Proof/Laws/State.lean ====
section
/-! SUPPORT. One lemma per field per update, true by rfl, so that no later proof unfolds a record update; and the same for
the functions through which the meanings read the state, where the update does not touch what they read. -/

namespace Sys2Proof.Machine

section Fields

variable (s : State)

@[simp] theorem State.setV_v (r : Reg) (b : Byte) : (s.setV r b).v = s.v.set r.toNat b r.isLt := rfl
@[simp] theorem State.setV_i (r : Reg) (b : Byte) : (s.setV r b).i = s.i := rfl
@[simp] theorem State.setV_pc (r : Reg) (b : Byte) : (s.setV r b).pc = s.pc := rfl
@[simp] theorem State.setV_stack (r : Reg) (b : Byte) : (s.setV r b).stack = s.stack := rfl
@[simp] theorem State.setV_sp (r : Reg) (b : Byte) : (s.setV r b).sp = s.sp := rfl
@[simp] theorem State.setV_dt (r : Reg) (b : Byte) : (s.setV r b).dt = s.dt := rfl
@[simp] theorem State.setV_st (r : Reg) (b : Byte) : (s.setV r b).st = s.st := rfl
@[simp] theorem State.setV_mem (r : Reg) (b : Byte) : (s.setV r b).mem = s.mem := rfl
@[simp] theorem State.setV_display (r : Reg) (b : Byte) : (s.setV r b).display = s.display := rfl
@[simp] theorem State.setV_k (r : Reg) (b : Byte) : (s.setV r b).k = s.k := rfl
@[simp] theorem State.setV_rng (r : Reg) (b : Byte) : (s.setV r b).rng = s.rng := rfl
@[simp] theorem State.setV_fault (r : Reg) (b : Byte) : (s.setV r b).fault = s.fault := rfl
@[simp] theorem State.setV_status (r : Reg) (b : Byte) : (s.setV r b).status = s.status := rfl
@[simp] theorem State.setV_tone (r : Reg) (b : Byte) : (s.setV r b).tone = s.tone := rfl
@[simp] theorem State.setV_dispUpdated (r : Reg) (b : Byte) : (s.setV r b).dispUpdated = s.dispUpdated := rfl
@[simp] theorem State.setV_keys (r : Reg) (b : Byte) : (s.setV r b).keys = s.keys := rfl
@[simp] theorem State.setV_readByte (r : Reg) (b : Byte) (a' : Nat) : (s.setV r b).readByte a' = s.readByte a' := rfl
@[simp] theorem State.setV_dataAddr (r : Reg) (b : Byte) (j : Nat) : (s.setV r b).dataAddr j = s.dataAddr j := rfl
@[simp] theorem State.setV_leastKey (r : Reg) (b : Byte) : (s.setV r b).leastKey = s.leastKey := rfl
@[simp] theorem State.setV_keyDown (r : Reg) (b : Byte) (j : Nibble) : (s.setV r b).keyDown j = s.keyDown j := rfl
@[simp] theorem State.setV_spriteRow (r : Reg) (b : Byte) (j : Nat) : (s.setV r b).spriteRow j = s.spriteRow j := rfl
@[simp] theorem State.setV_fetchWord (r : Reg) (b : Byte) : (s.setV r b).fetchWord = s.fetchWord := rfl
@[simp] theorem State.setV_rndByte (r : Reg) (b : Byte) : (s.setV r b).rndByte = s.rndByte := rfl

@[simp] theorem State.setI_v (a : Word) : (s.setI a).v = s.v := rfl
@[simp] theorem State.setI_i (a : Word) : (s.setI a).i = a := rfl
@[simp] theorem State.setI_pc (a : Word) : (s.setI a).pc = s.pc := rfl
@[simp] theorem State.setI_stack (a : Word) : (s.setI a).stack = s.stack := rfl
@[simp] theorem State.setI_sp (a : Word) : (s.setI a).sp = s.sp := rfl
@[simp] theorem State.setI_dt (a : Word) : (s.setI a).dt = s.dt := rfl
@[simp] theorem State.setI_st (a : Word) : (s.setI a).st = s.st := rfl
@[simp] theorem State.setI_mem (a : Word) : (s.setI a).mem = s.mem := rfl
@[simp] theorem State.setI_display (a : Word) : (s.setI a).display = s.display := rfl
@[simp] theorem State.setI_k (a : Word) : (s.setI a).k = s.k := rfl
@[simp] theorem State.setI_rng (a : Word) : (s.setI a).rng = s.rng := rfl
@[simp] theorem State.setI_fault (a : Word) : (s.setI a).fault = s.fault := rfl
@[simp] theorem State.setI_status (a : Word) : (s.setI a).status = s.status := rfl
@[simp] theorem State.setI_tone (a : Word) : (s.setI a).tone = s.tone := rfl
@[simp] theorem State.setI_dispUpdated (a : Word) : (s.setI a).dispUpdated = s.dispUpdated := rfl
@[simp] theorem State.setI_keys (a : Word) : (s.setI a).keys = s.keys := rfl
@[simp] theorem State.setI_getV (a : Word) (r' : Reg) : (s.setI a).getV r' = s.getV r' := rfl
@[simp] theorem State.setI_readByte (a : Word) (a' : Nat) : (s.setI a).readByte a' = s.readByte a' := rfl
@[simp] theorem State.setI_leastKey (a : Word) : (s.setI a).leastKey = s.leastKey := rfl
@[simp] theorem State.setI_keyDown (a : Word) (j : Nibble) : (s.setI a).keyDown j = s.keyDown j := rfl
@[simp] theorem State.setI_fetchWord (a : Word) : (s.setI a).fetchWord = s.fetchWord := rfl
@[simp] theorem State.setI_rndByte (a : Word) : (s.setI a).rndByte = s.rndByte := rfl

@[simp] theorem State.setDT_v (b : Byte) : (s.setDT b).v = s.v := rfl
@[simp] theorem State.setDT_i (b : Byte) : (s.setDT b).i = s.i := rfl
@[simp] theorem State.setDT_pc (b : Byte) : (s.setDT b).pc = s.pc := rfl
@[simp] theorem State.setDT_stack (b : Byte) : (s.setDT b).stack = s.stack := rfl
@[simp] theorem State.setDT_sp (b : Byte) : (s.setDT b).sp = s.sp := rfl
@[simp] theorem State.setDT_dt (b : Byte) : (s.setDT b).dt = b := rfl
@[simp] theorem State.setDT_st (b : Byte) : (s.setDT b).st = s.st := rfl
@[simp] theorem State.setDT_mem (b : Byte) : (s.setDT b).mem = s.mem := rfl
@[simp] theorem State.setDT_display (b : Byte) : (s.setDT b).display = s.display := rfl
@[simp] theorem State.setDT_k (b : Byte) : (s.setDT b).k = s.k := rfl
@[simp] theorem State.setDT_rng (b : Byte) : (s.setDT b).rng = s.rng := rfl
@[simp] theorem State.setDT_fault (b : Byte) : (s.setDT b).fault = s.fault := rfl
@[simp] theorem State.setDT_status (b : Byte) : (s.setDT b).status = s.status := rfl
@[simp] theorem State.setDT_tone (b : Byte) : (s.setDT b).tone = s.tone := rfl
@[simp] theorem State.setDT_dispUpdated (b : Byte) : (s.setDT b).dispUpdated = s.dispUpdated := rfl
@[simp] theorem State.setDT_keys (b : Byte) : (s.setDT b).keys = s.keys := rfl
@[simp] theorem State.setDT_getV (b : Byte) (r' : Reg) : (s.setDT b).getV r' = s.getV r' := rfl
@[simp] theorem State.setDT_readByte (b : Byte) (a' : Nat) : (s.setDT b).readByte a' = s.readByte a' := rfl
@[simp] theorem State.setDT_dataAddr (b : Byte) (j : Nat) : (s.setDT b).dataAddr j = s.dataAddr j := rfl
@[simp] theorem State.setDT_leastKey (b : Byte) : (s.setDT b).leastKey = s.leastKey := rfl
@[simp] theorem State.setDT_keyDown (b : Byte) (j : Nibble) : (s.setDT b).keyDown j = s.keyDown j := rfl
@[simp] theorem State.setDT_spriteRow (b : Byte) (j : Nat) : (s.setDT b).spriteRow j = s.spriteRow j := rfl
@[simp] theorem State.setDT_fetchWord (b : Byte) : (s.setDT b).fetchWord = s.fetchWord := rfl
@[simp] theorem State.setDT_rndByte (b : Byte) : (s.setDT b).rndByte = s.rndByte := rfl

@[simp] theorem State.setST_v (b : Byte) : (s.setST b).v = s.v := rfl
@[simp] theorem State.setST_i (b : Byte) : (s.setST b).i = s.i := rfl
@[simp] theorem State.setST_pc (b : Byte) : (s.setST b).pc = s.pc := rfl
@[simp] theorem State.setST_stack (b : Byte) : (s.setST b).stack = s.stack := rfl
@[simp] theorem State.setST_sp (b : Byte) : (s.setST b).sp = s.sp := rfl
@[simp] theorem State.setST_dt (b : Byte) : (s.setST b).dt = s.dt := rfl
@[simp] theorem State.setST_st (b : Byte) : (s.setST b).st = b := rfl
@[simp] theorem State.setST_mem (b : Byte) : (s.setST b).mem = s.mem := rfl
@[simp] theorem State.setST_display (b : Byte) : (s.setST b).display = s.display := rfl
@[simp] theorem State.setST_k (b : Byte) : (s.setST b).k = s.k := rfl
@[simp] theorem State.setST_rng (b : Byte) : (s.setST b).rng = s.rng := rfl
@[simp] theorem State.setST_fault (b : Byte) : (s.setST b).fault = s.fault := rfl
@[simp] theorem State.setST_status (b : Byte) : (s.setST b).status = s.status := rfl
@[simp] theorem State.setST_tone (b : Byte) : (s.setST b).tone = s.tone := rfl
@[simp] theorem State.setST_dispUpdated (b : Byte) : (s.setST b).dispUpdated = s.dispUpdated := rfl
@[simp] theorem State.setST_keys (b : Byte) : (s.setST b).keys = s.keys := rfl
@[simp] theorem State.setST_getV (b : Byte) (r' : Reg) : (s.setST b).getV r' = s.getV r' := rfl
@[simp] theorem State.setST_readByte (b : Byte) (a' : Nat) : (s.setST b).readByte a' = s.readByte a' := rfl
@[simp] theorem State.setST_dataAddr (b : Byte) (j : Nat) : (s.setST b).dataAddr j = s.dataAddr j := rfl
@[simp] theorem State.setST_leastKey (b : Byte) : (s.setST b).leastKey = s.leastKey := rfl
@[simp] theorem State.setST_keyDown (b : Byte) (j : Nibble) : (s.setST b).keyDown j = s.keyDown j := rfl
@[simp] theorem State.setST_spriteRow (b : Byte) (j : Nat) : (s.setST b).spriteRow j = s.spriteRow j := rfl
@[simp] theorem State.setST_fetchWord (b : Byte) : (s.setST b).fetchWord = s.fetchWord := rfl
@[simp] theorem State.setST_rndByte (b : Byte) : (s.setST b).rndByte = s.rndByte := rfl

@[simp] theorem State.writeByte_v (a : Nat) (b : Byte) : (s.writeByte a b).v = s.v := rfl
@[simp] theorem State.writeByte_i (a : Nat) (b : Byte) : (s.writeByte a b).i = s.i := rfl
@[simp] theorem State.writeByte_pc (a : Nat) (b : Byte) : (s.writeByte a b).pc = s.pc := rfl
@[simp] theorem State.writeByte_stack (a : Nat) (b : Byte) : (s.writeByte a b).stack = s.stack := rfl
@[simp] theorem State.writeByte_sp (a : Nat) (b : Byte) : (s.writeByte a b).sp = s.sp := rfl
@[simp] theorem State.writeByte_dt (a : Nat) (b : Byte) : (s.writeByte a b).dt = s.dt := rfl
@[simp] theorem State.writeByte_st (a : Nat) (b : Byte) : (s.writeByte a b).st = s.st := rfl
@[simp] theorem State.writeByte_mem (a : Nat) (b : Byte) : (s.writeByte a b).mem = Memory.write s.mem (ea a) b := rfl
@[simp] theorem State.writeByte_display (a : Nat) (b : Byte) : (s.writeByte a b).display = s.display := rfl
@[simp] theorem State.writeByte_k (a : Nat) (b : Byte) : (s.writeByte a b).k = s.k := rfl
@[simp] theorem State.writeByte_rng (a : Nat) (b : Byte) : (s.writeByte a b).rng = s.rng := rfl
@[simp] theorem State.writeByte_fault (a : Nat) (b : Byte) : (s.writeByte a b).fault = s.fault := rfl
@[simp] theorem State.writeByte_status (a : Nat) (b : Byte) : (s.writeByte a b).status = s.status := rfl
@[simp] theorem State.writeByte_tone (a : Nat) (b : Byte) : (s.writeByte a b).tone = s.tone := rfl
@[simp] theorem State.writeByte_dispUpdated (a : Nat) (b : Byte) : (s.writeByte a b).dispUpdated = s.dispUpdated := rfl
@[simp] theorem State.writeByte_keys (a : Nat) (b : Byte) : (s.writeByte a b).keys = s.keys := rfl
@[simp] theorem State.writeByte_getV (a : Nat) (b : Byte) (r' : Reg) : (s.writeByte a b).getV r' = s.getV r' := rfl
@[simp] theorem State.writeByte_dataAddr (a : Nat) (b : Byte) (j : Nat) : (s.writeByte a b).dataAddr j = s.dataAddr j := rfl
@[simp] theorem State.writeByte_leastKey (a : Nat) (b : Byte) : (s.writeByte a b).leastKey = s.leastKey := rfl
@[simp] theorem State.writeByte_keyDown (a : Nat) (b : Byte) (j : Nibble) : (s.writeByte a b).keyDown j = s.keyDown j := rfl
@[simp] theorem State.writeByte_rndByte (a : Nat) (b : Byte) : (s.writeByte a b).rndByte = s.rndByte := rfl

@[simp] theorem State.push_v (a : Word) (h : s.sp.val < 16) : (s.push a h).v = s.v := rfl
@[simp] theorem State.push_i (a : Word) (h : s.sp.val < 16) : (s.push a h).i = s.i := rfl
@[simp] theorem State.push_pc (a : Word) (h : s.sp.val < 16) : (s.push a h).pc = s.pc := rfl
@[simp] theorem State.push_stack (a : Word) (h : s.sp.val < 16) : (s.push a h).stack = s.stack.set s.sp.val a h := rfl
@[simp] theorem State.push_sp (a : Word) (h : s.sp.val < 16) : (s.push a h).sp = ⟨s.sp.val + 1, by omega⟩ := rfl
@[simp] theorem State.push_dt (a : Word) (h : s.sp.val < 16) : (s.push a h).dt = s.dt := rfl
@[simp] theorem State.push_st (a : Word) (h : s.sp.val < 16) : (s.push a h).st = s.st := rfl
@[simp] theorem State.push_mem (a : Word) (h : s.sp.val < 16) : (s.push a h).mem = s.mem := rfl
@[simp] theorem State.push_display (a : Word) (h : s.sp.val < 16) : (s.push a h).display = s.display := rfl
@[simp] theorem State.push_k (a : Word) (h : s.sp.val < 16) : (s.push a h).k = s.k := rfl
@[simp] theorem State.push_rng (a : Word) (h : s.sp.val < 16) : (s.push a h).rng = s.rng := rfl
@[simp] theorem State.push_fault (a : Word) (h : s.sp.val < 16) : (s.push a h).fault = s.fault := rfl
@[simp] theorem State.push_status (a : Word) (h : s.sp.val < 16) : (s.push a h).status = s.status := rfl
@[simp] theorem State.push_tone (a : Word) (h : s.sp.val < 16) : (s.push a h).tone = s.tone := rfl
@[simp] theorem State.push_dispUpdated (a : Word) (h : s.sp.val < 16) : (s.push a h).dispUpdated = s.dispUpdated := rfl
@[simp] theorem State.push_keys (a : Word) (h : s.sp.val < 16) : (s.push a h).keys = s.keys := rfl
@[simp] theorem State.push_getV (a : Word) (h : s.sp.val < 16) (r' : Reg) : (s.push a h).getV r' = s.getV r' := rfl
@[simp] theorem State.push_readByte (a : Word) (h : s.sp.val < 16) (a' : Nat) : (s.push a h).readByte a' = s.readByte a' := rfl
@[simp] theorem State.push_dataAddr (a : Word) (h : s.sp.val < 16) (j : Nat) : (s.push a h).dataAddr j = s.dataAddr j := rfl
@[simp] theorem State.push_leastKey (a : Word) (h : s.sp.val < 16) : (s.push a h).leastKey = s.leastKey := rfl
@[simp] theorem State.push_keyDown (a : Word) (h : s.sp.val < 16) (j : Nibble) : (s.push a h).keyDown j = s.keyDown j := rfl
@[simp] theorem State.push_spriteRow (a : Word) (h : s.sp.val < 16) (j : Nat) : (s.push a h).spriteRow j = s.spriteRow j := rfl
@[simp] theorem State.push_fetchWord (a : Word) (h : s.sp.val < 16) : (s.push a h).fetchWord = s.fetchWord := rfl
@[simp] theorem State.push_rndByte (a : Word) (h : s.sp.val < 16) : (s.push a h).rndByte = s.rndByte := rfl

@[simp] theorem State.drop_v (h : 0 < s.sp.val) : (s.drop h).v = s.v := rfl
@[simp] theorem State.drop_i (h : 0 < s.sp.val) : (s.drop h).i = s.i := rfl
@[simp] theorem State.drop_pc (h : 0 < s.sp.val) : (s.drop h).pc = s.pc := rfl
@[simp] theorem State.drop_stack (h : 0 < s.sp.val) : (s.drop h).stack = s.stack := rfl
@[simp] theorem State.drop_sp (h : 0 < s.sp.val) : (s.drop h).sp = ⟨s.sp.val - 1, by omega⟩ := rfl
@[simp] theorem State.drop_dt (h : 0 < s.sp.val) : (s.drop h).dt = s.dt := rfl
@[simp] theorem State.drop_st (h : 0 < s.sp.val) : (s.drop h).st = s.st := rfl
@[simp] theorem State.drop_mem (h : 0 < s.sp.val) : (s.drop h).mem = s.mem := rfl
@[simp] theorem State.drop_display (h : 0 < s.sp.val) : (s.drop h).display = s.display := rfl
@[simp] theorem State.drop_k (h : 0 < s.sp.val) : (s.drop h).k = s.k := rfl
@[simp] theorem State.drop_rng (h : 0 < s.sp.val) : (s.drop h).rng = s.rng := rfl
@[simp] theorem State.drop_fault (h : 0 < s.sp.val) : (s.drop h).fault = s.fault := rfl
@[simp] theorem State.drop_status (h : 0 < s.sp.val) : (s.drop h).status = s.status := rfl
@[simp] theorem State.drop_tone (h : 0 < s.sp.val) : (s.drop h).tone = s.tone := rfl
@[simp] theorem State.drop_dispUpdated (h : 0 < s.sp.val) : (s.drop h).dispUpdated = s.dispUpdated := rfl
@[simp] theorem State.drop_keys (h : 0 < s.sp.val) : (s.drop h).keys = s.keys := rfl
@[simp] theorem State.drop_getV (h : 0 < s.sp.val) (r' : Reg) : (s.drop h).getV r' = s.getV r' := rfl
@[simp] theorem State.drop_readByte (h : 0 < s.sp.val) (a' : Nat) : (s.drop h).readByte a' = s.readByte a' := rfl
@[simp] theorem State.drop_dataAddr (h : 0 < s.sp.val) (j : Nat) : (s.drop h).dataAddr j = s.dataAddr j := rfl
@[simp] theorem State.drop_leastKey (h : 0 < s.sp.val) : (s.drop h).leastKey = s.leastKey := rfl
@[simp] theorem State.drop_keyDown (h : 0 < s.sp.val) (j : Nibble) : (s.drop h).keyDown j = s.keyDown j := rfl
@[simp] theorem State.drop_spriteRow (h : 0 < s.sp.val) (j : Nat) : (s.drop h).spriteRow j = s.spriteRow j := rfl
@[simp] theorem State.drop_fetchWord (h : 0 < s.sp.val) : (s.drop h).fetchWord = s.fetchWord := rfl
@[simp] theorem State.drop_rndByte (h : 0 < s.sp.val) : (s.drop h).rndByte = s.rndByte := rfl

@[simp] theorem State.advanceRng_v : (s.advanceRng).v = s.v := rfl
@[simp] theorem State.advanceRng_i : (s.advanceRng).i = s.i := rfl
@[simp] theorem State.advanceRng_pc : (s.advanceRng).pc = s.pc := rfl
@[simp] theorem State.advanceRng_stack : (s.advanceRng).stack = s.stack := rfl
@[simp] theorem State.advanceRng_sp : (s.advanceRng).sp = s.sp := rfl
@[simp] theorem State.advanceRng_dt : (s.advanceRng).dt = s.dt := rfl
@[simp] theorem State.advanceRng_st : (s.advanceRng).st = s.st := rfl
@[simp] theorem State.advanceRng_mem : (s.advanceRng).mem = s.mem := rfl
@[simp] theorem State.advanceRng_display : (s.advanceRng).display = s.display := rfl
@[simp] theorem State.advanceRng_k : (s.advanceRng).k = s.k := rfl
@[simp] theorem State.advanceRng_rng : (s.advanceRng).rng = (s.rng.take Config.rndByte).2 := rfl
@[simp] theorem State.advanceRng_fault : (s.advanceRng).fault = s.fault := rfl
@[simp] theorem State.advanceRng_status : (s.advanceRng).status = s.status := rfl
@[simp] theorem State.advanceRng_tone : (s.advanceRng).tone = s.tone := rfl
@[simp] theorem State.advanceRng_dispUpdated : (s.advanceRng).dispUpdated = s.dispUpdated := rfl
@[simp] theorem State.advanceRng_keys : (s.advanceRng).keys = s.keys := rfl
@[simp] theorem State.advanceRng_getV (r' : Reg) : (s.advanceRng).getV r' = s.getV r' := rfl
@[simp] theorem State.advanceRng_readByte (a' : Nat) : (s.advanceRng).readByte a' = s.readByte a' := rfl
@[simp] theorem State.advanceRng_dataAddr (j : Nat) : (s.advanceRng).dataAddr j = s.dataAddr j := rfl
@[simp] theorem State.advanceRng_leastKey : (s.advanceRng).leastKey = s.leastKey := rfl
@[simp] theorem State.advanceRng_keyDown (j : Nibble) : (s.advanceRng).keyDown j = s.keyDown j := rfl
@[simp] theorem State.advanceRng_spriteRow (j : Nat) : (s.advanceRng).spriteRow j = s.spriteRow j := rfl
@[simp] theorem State.advanceRng_fetchWord : (s.advanceRng).fetchWord = s.fetchWord := rfl

@[simp] theorem State.goto_v (a : Word) : (s.goto a).v = s.v := rfl
@[simp] theorem State.goto_i (a : Word) : (s.goto a).i = s.i := rfl
@[simp] theorem State.goto_pc (a : Word) : (s.goto a).pc = a := rfl
@[simp] theorem State.goto_stack (a : Word) : (s.goto a).stack = s.stack := rfl
@[simp] theorem State.goto_sp (a : Word) : (s.goto a).sp = s.sp := rfl
@[simp] theorem State.goto_dt (a : Word) : (s.goto a).dt = s.dt := rfl
@[simp] theorem State.goto_st (a : Word) : (s.goto a).st = s.st := rfl
@[simp] theorem State.goto_mem (a : Word) : (s.goto a).mem = s.mem := rfl
@[simp] theorem State.goto_display (a : Word) : (s.goto a).display = s.display := rfl
@[simp] theorem State.goto_k (a : Word) : (s.goto a).k = s.k := rfl
@[simp] theorem State.goto_rng (a : Word) : (s.goto a).rng = s.rng := rfl
@[simp] theorem State.goto_fault (a : Word) : (s.goto a).fault = s.fault := rfl
@[simp] theorem State.goto_status (a : Word) : (s.goto a).status = .done := rfl
@[simp] theorem State.goto_tone (a : Word) : (s.goto a).tone = s.tone := rfl
@[simp] theorem State.goto_dispUpdated (a : Word) : (s.goto a).dispUpdated = s.dispUpdated := rfl
@[simp] theorem State.goto_keys (a : Word) : (s.goto a).keys = s.keys := rfl
@[simp] theorem State.goto_getV (a : Word) (r' : Reg) : (s.goto a).getV r' = s.getV r' := rfl
@[simp] theorem State.goto_readByte (a : Word) (a' : Nat) : (s.goto a).readByte a' = s.readByte a' := rfl
@[simp] theorem State.goto_dataAddr (a : Word) (j : Nat) : (s.goto a).dataAddr j = s.dataAddr j := rfl
@[simp] theorem State.goto_leastKey (a : Word) : (s.goto a).leastKey = s.leastKey := rfl
@[simp] theorem State.goto_keyDown (a : Word) (j : Nibble) : (s.goto a).keyDown j = s.keyDown j := rfl
@[simp] theorem State.goto_spriteRow (a : Word) (j : Nat) : (s.goto a).spriteRow j = s.spriteRow j := rfl
@[simp] theorem State.goto_rndByte (a : Word) : (s.goto a).rndByte = s.rndByte := rfl

@[simp] theorem State.advance_v : (s.advance).v = s.v := rfl
@[simp] theorem State.advance_i : (s.advance).i = s.i := rfl
@[simp] theorem State.advance_pc : (s.advance).pc = s.pc + 2#16 := rfl
@[simp] theorem State.advance_stack : (s.advance).stack = s.stack := rfl
@[simp] theorem State.advance_sp : (s.advance).sp = s.sp := rfl
@[simp] theorem State.advance_dt : (s.advance).dt = s.dt := rfl
@[simp] theorem State.advance_st : (s.advance).st = s.st := rfl
@[simp] theorem State.advance_mem : (s.advance).mem = s.mem := rfl
@[simp] theorem State.advance_display : (s.advance).display = s.display := rfl
@[simp] theorem State.advance_k : (s.advance).k = s.k := rfl
@[simp] theorem State.advance_rng : (s.advance).rng = s.rng := rfl
@[simp] theorem State.advance_fault : (s.advance).fault = s.fault := rfl
@[simp] theorem State.advance_status : (s.advance).status = .done := rfl
@[simp] theorem State.advance_tone : (s.advance).tone = s.tone := rfl
@[simp] theorem State.advance_dispUpdated : (s.advance).dispUpdated = s.dispUpdated := rfl
@[simp] theorem State.advance_keys : (s.advance).keys = s.keys := rfl
@[simp] theorem State.advance_getV (r' : Reg) : (s.advance).getV r' = s.getV r' := rfl
@[simp] theorem State.advance_readByte (a' : Nat) : (s.advance).readByte a' = s.readByte a' := rfl
@[simp] theorem State.advance_dataAddr (j : Nat) : (s.advance).dataAddr j = s.dataAddr j := rfl
@[simp] theorem State.advance_leastKey : (s.advance).leastKey = s.leastKey := rfl
@[simp] theorem State.advance_keyDown (j : Nibble) : (s.advance).keyDown j = s.keyDown j := rfl
@[simp] theorem State.advance_spriteRow (j : Nat) : (s.advance).spriteRow j = s.spriteRow j := rfl
@[simp] theorem State.advance_rndByte : (s.advance).rndByte = s.rndByte := rfl

@[simp] theorem State.skipIf_v (p : Bool) : (s.skipIf p).v = s.v := rfl
@[simp] theorem State.skipIf_i (p : Bool) : (s.skipIf p).i = s.i := rfl
@[simp] theorem State.skipIf_pc (p : Bool) : (s.skipIf p).pc = if p then s.pc + 4#16 else s.pc + 2#16 := rfl
@[simp] theorem State.skipIf_stack (p : Bool) : (s.skipIf p).stack = s.stack := rfl
@[simp] theorem State.skipIf_sp (p : Bool) : (s.skipIf p).sp = s.sp := rfl
@[simp] theorem State.skipIf_dt (p : Bool) : (s.skipIf p).dt = s.dt := rfl
@[simp] theorem State.skipIf_st (p : Bool) : (s.skipIf p).st = s.st := rfl
@[simp] theorem State.skipIf_mem (p : Bool) : (s.skipIf p).mem = s.mem := rfl
@[simp] theorem State.skipIf_display (p : Bool) : (s.skipIf p).display = s.display := rfl
@[simp] theorem State.skipIf_k (p : Bool) : (s.skipIf p).k = s.k := rfl
@[simp] theorem State.skipIf_rng (p : Bool) : (s.skipIf p).rng = s.rng := rfl
@[simp] theorem State.skipIf_fault (p : Bool) : (s.skipIf p).fault = s.fault := rfl
@[simp] theorem State.skipIf_status (p : Bool) : (s.skipIf p).status = .done := rfl
@[simp] theorem State.skipIf_tone (p : Bool) : (s.skipIf p).tone = s.tone := rfl
@[simp] theorem State.skipIf_dispUpdated (p : Bool) : (s.skipIf p).dispUpdated = s.dispUpdated := rfl
@[simp] theorem State.skipIf_keys (p : Bool) : (s.skipIf p).keys = s.keys := rfl
@[simp] theorem State.skipIf_getV (p : Bool) (r' : Reg) : (s.skipIf p).getV r' = s.getV r' := rfl
@[simp] theorem State.skipIf_readByte (p : Bool) (a' : Nat) : (s.skipIf p).readByte a' = s.readByte a' := rfl
@[simp] theorem State.skipIf_dataAddr (p : Bool) (j : Nat) : (s.skipIf p).dataAddr j = s.dataAddr j := rfl
@[simp] theorem State.skipIf_leastKey (p : Bool) : (s.skipIf p).leastKey = s.leastKey := rfl
@[simp] theorem State.skipIf_keyDown (p : Bool) (j : Nibble) : (s.skipIf p).keyDown j = s.keyDown j := rfl
@[simp] theorem State.skipIf_spriteRow (p : Bool) (j : Nat) : (s.skipIf p).spriteRow j = s.spriteRow j := rfl
@[simp] theorem State.skipIf_rndByte (p : Bool) : (s.skipIf p).rndByte = s.rndByte := rfl

@[simp] theorem State.await_v : (s.await).v = s.v := rfl
@[simp] theorem State.await_i : (s.await).i = s.i := rfl
@[simp] theorem State.await_pc : (s.await).pc = s.pc := rfl
@[simp] theorem State.await_stack : (s.await).stack = s.stack := rfl
@[simp] theorem State.await_sp : (s.await).sp = s.sp := rfl
@[simp] theorem State.await_dt : (s.await).dt = s.dt := rfl
@[simp] theorem State.await_st : (s.await).st = s.st := rfl
@[simp] theorem State.await_mem : (s.await).mem = s.mem := rfl
@[simp] theorem State.await_display : (s.await).display = s.display := rfl
@[simp] theorem State.await_k : (s.await).k = s.k := rfl
@[simp] theorem State.await_rng : (s.await).rng = s.rng := rfl
@[simp] theorem State.await_fault : (s.await).fault = s.fault := rfl
@[simp] theorem State.await_status : (s.await).status = .awaitKey := rfl
@[simp] theorem State.await_tone : (s.await).tone = s.tone := rfl
@[simp] theorem State.await_dispUpdated : (s.await).dispUpdated = s.dispUpdated := rfl
@[simp] theorem State.await_keys : (s.await).keys = s.keys := rfl
@[simp] theorem State.await_getV (r' : Reg) : (s.await).getV r' = s.getV r' := rfl
@[simp] theorem State.await_readByte (a' : Nat) : (s.await).readByte a' = s.readByte a' := rfl
@[simp] theorem State.await_dataAddr (j : Nat) : (s.await).dataAddr j = s.dataAddr j := rfl
@[simp] theorem State.await_leastKey : (s.await).leastKey = s.leastKey := rfl
@[simp] theorem State.await_keyDown (j : Nibble) : (s.await).keyDown j = s.keyDown j := rfl
@[simp] theorem State.await_spriteRow (j : Nat) : (s.await).spriteRow j = s.spriteRow j := rfl
@[simp] theorem State.await_fetchWord : (s.await).fetchWord = s.fetchWord := rfl
@[simp] theorem State.await_rndByte : (s.await).rndByte = s.rndByte := rfl

@[simp] theorem State.raise_v (f : Fault) : (s.raise f).v = s.v := rfl
@[simp] theorem State.raise_i (f : Fault) : (s.raise f).i = s.i := rfl
@[simp] theorem State.raise_pc (f : Fault) : (s.raise f).pc = s.pc := rfl
@[simp] theorem State.raise_stack (f : Fault) : (s.raise f).stack = s.stack := rfl
@[simp] theorem State.raise_sp (f : Fault) : (s.raise f).sp = s.sp := rfl
@[simp] theorem State.raise_dt (f : Fault) : (s.raise f).dt = s.dt := rfl
@[simp] theorem State.raise_st (f : Fault) : (s.raise f).st = s.st := rfl
@[simp] theorem State.raise_mem (f : Fault) : (s.raise f).mem = s.mem := rfl
@[simp] theorem State.raise_display (f : Fault) : (s.raise f).display = s.display := rfl
@[simp] theorem State.raise_k (f : Fault) : (s.raise f).k = s.k := rfl
@[simp] theorem State.raise_rng (f : Fault) : (s.raise f).rng = s.rng := rfl
@[simp] theorem State.raise_fault (f : Fault) : (s.raise f).fault = some f := rfl
@[simp] theorem State.raise_status (f : Fault) : (s.raise f).status = .fault f.code f.info := rfl
@[simp] theorem State.raise_tone (f : Fault) : (s.raise f).tone = s.tone := rfl
@[simp] theorem State.raise_dispUpdated (f : Fault) : (s.raise f).dispUpdated = s.dispUpdated := rfl
@[simp] theorem State.raise_keys (f : Fault) : (s.raise f).keys = s.keys := rfl
@[simp] theorem State.raise_getV (f : Fault) (r' : Reg) : (s.raise f).getV r' = s.getV r' := rfl
@[simp] theorem State.raise_readByte (f : Fault) (a' : Nat) : (s.raise f).readByte a' = s.readByte a' := rfl
@[simp] theorem State.raise_dataAddr (f : Fault) (j : Nat) : (s.raise f).dataAddr j = s.dataAddr j := rfl
@[simp] theorem State.raise_leastKey (f : Fault) : (s.raise f).leastKey = s.leastKey := rfl
@[simp] theorem State.raise_keyDown (f : Fault) (j : Nibble) : (s.raise f).keyDown j = s.keyDown j := rfl
@[simp] theorem State.raise_spriteRow (f : Fault) (j : Nat) : (s.raise f).spriteRow j = s.spriteRow j := rfl
@[simp] theorem State.raise_fetchWord (f : Fault) : (s.raise f).fetchWord = s.fetchWord := rfl
@[simp] theorem State.raise_rndByte (f : Fault) : (s.raise f).rndByte = s.rndByte := rfl

@[simp] theorem State.reportFault_v (f : Fault) : (s.reportFault f).v = s.v := rfl
@[simp] theorem State.reportFault_i (f : Fault) : (s.reportFault f).i = s.i := rfl
@[simp] theorem State.reportFault_pc (f : Fault) : (s.reportFault f).pc = s.pc := rfl
@[simp] theorem State.reportFault_stack (f : Fault) : (s.reportFault f).stack = s.stack := rfl
@[simp] theorem State.reportFault_sp (f : Fault) : (s.reportFault f).sp = s.sp := rfl
@[simp] theorem State.reportFault_dt (f : Fault) : (s.reportFault f).dt = s.dt := rfl
@[simp] theorem State.reportFault_st (f : Fault) : (s.reportFault f).st = s.st := rfl
@[simp] theorem State.reportFault_mem (f : Fault) : (s.reportFault f).mem = s.mem := rfl
@[simp] theorem State.reportFault_display (f : Fault) : (s.reportFault f).display = s.display := rfl
@[simp] theorem State.reportFault_k (f : Fault) : (s.reportFault f).k = s.k := rfl
@[simp] theorem State.reportFault_rng (f : Fault) : (s.reportFault f).rng = s.rng := rfl
@[simp] theorem State.reportFault_fault (f : Fault) : (s.reportFault f).fault = s.fault := rfl
@[simp] theorem State.reportFault_status (f : Fault) : (s.reportFault f).status = .fault f.code f.info := rfl
@[simp] theorem State.reportFault_tone (f : Fault) : (s.reportFault f).tone = s.tone := rfl
@[simp] theorem State.reportFault_dispUpdated (f : Fault) : (s.reportFault f).dispUpdated = s.dispUpdated := rfl
@[simp] theorem State.reportFault_keys (f : Fault) : (s.reportFault f).keys = s.keys := rfl
@[simp] theorem State.reportFault_getV (f : Fault) (r' : Reg) : (s.reportFault f).getV r' = s.getV r' := rfl
@[simp] theorem State.reportFault_readByte (f : Fault) (a' : Nat) : (s.reportFault f).readByte a' = s.readByte a' := rfl
@[simp] theorem State.reportFault_dataAddr (f : Fault) (j : Nat) : (s.reportFault f).dataAddr j = s.dataAddr j := rfl
@[simp] theorem State.reportFault_leastKey (f : Fault) : (s.reportFault f).leastKey = s.leastKey := rfl
@[simp] theorem State.reportFault_keyDown (f : Fault) (j : Nibble) : (s.reportFault f).keyDown j = s.keyDown j := rfl
@[simp] theorem State.reportFault_spriteRow (f : Fault) (j : Nat) : (s.reportFault f).spriteRow j = s.spriteRow j := rfl
@[simp] theorem State.reportFault_fetchWord (f : Fault) : (s.reportFault f).fetchWord = s.fetchWord := rfl
@[simp] theorem State.reportFault_rndByte (f : Fault) : (s.reportFault f).rndByte = s.rndByte := rfl

@[simp] theorem State.clearPulses_v : (s.clearPulses).v = s.v := rfl
@[simp] theorem State.clearPulses_i : (s.clearPulses).i = s.i := rfl
@[simp] theorem State.clearPulses_pc : (s.clearPulses).pc = s.pc := rfl
@[simp] theorem State.clearPulses_stack : (s.clearPulses).stack = s.stack := rfl
@[simp] theorem State.clearPulses_sp : (s.clearPulses).sp = s.sp := rfl
@[simp] theorem State.clearPulses_dt : (s.clearPulses).dt = s.dt := rfl
@[simp] theorem State.clearPulses_st : (s.clearPulses).st = s.st := rfl
@[simp] theorem State.clearPulses_mem : (s.clearPulses).mem = s.mem := rfl
@[simp] theorem State.clearPulses_display : (s.clearPulses).display = s.display := rfl
@[simp] theorem State.clearPulses_k : (s.clearPulses).k = s.k := rfl
@[simp] theorem State.clearPulses_rng : (s.clearPulses).rng = s.rng := rfl
@[simp] theorem State.clearPulses_fault : (s.clearPulses).fault = s.fault := rfl
@[simp] theorem State.clearPulses_status : (s.clearPulses).status = s.status := rfl
@[simp] theorem State.clearPulses_tone : (s.clearPulses).tone = false := rfl
@[simp] theorem State.clearPulses_dispUpdated : (s.clearPulses).dispUpdated = false := rfl
@[simp] theorem State.clearPulses_keys : (s.clearPulses).keys = s.keys := rfl
@[simp] theorem State.clearPulses_getV (r' : Reg) : (s.clearPulses).getV r' = s.getV r' := rfl
@[simp] theorem State.clearPulses_readByte (a' : Nat) : (s.clearPulses).readByte a' = s.readByte a' := rfl
@[simp] theorem State.clearPulses_dataAddr (j : Nat) : (s.clearPulses).dataAddr j = s.dataAddr j := rfl
@[simp] theorem State.clearPulses_leastKey : (s.clearPulses).leastKey = s.leastKey := rfl
@[simp] theorem State.clearPulses_keyDown (j : Nibble) : (s.clearPulses).keyDown j = s.keyDown j := rfl
@[simp] theorem State.clearPulses_spriteRow (j : Nat) : (s.clearPulses).spriteRow j = s.spriteRow j := rfl
@[simp] theorem State.clearPulses_fetchWord : (s.clearPulses).fetchWord = s.fetchWord := rfl
@[simp] theorem State.clearPulses_rndByte : (s.clearPulses).rndByte = s.rndByte := rfl

@[simp] theorem State.latchKeys_v (keys : Keys) : (s.latchKeys keys).v = s.v := rfl
@[simp] theorem State.latchKeys_i (keys : Keys) : (s.latchKeys keys).i = s.i := rfl
@[simp] theorem State.latchKeys_pc (keys : Keys) : (s.latchKeys keys).pc = s.pc := rfl
@[simp] theorem State.latchKeys_stack (keys : Keys) : (s.latchKeys keys).stack = s.stack := rfl
@[simp] theorem State.latchKeys_sp (keys : Keys) : (s.latchKeys keys).sp = s.sp := rfl
@[simp] theorem State.latchKeys_dt (keys : Keys) : (s.latchKeys keys).dt = s.dt := rfl
@[simp] theorem State.latchKeys_st (keys : Keys) : (s.latchKeys keys).st = s.st := rfl
@[simp] theorem State.latchKeys_mem (keys : Keys) : (s.latchKeys keys).mem = s.mem := rfl
@[simp] theorem State.latchKeys_display (keys : Keys) : (s.latchKeys keys).display = s.display := rfl
@[simp] theorem State.latchKeys_k (keys : Keys) : (s.latchKeys keys).k = keys := rfl
@[simp] theorem State.latchKeys_rng (keys : Keys) : (s.latchKeys keys).rng = s.rng := rfl
@[simp] theorem State.latchKeys_fault (keys : Keys) : (s.latchKeys keys).fault = s.fault := rfl
@[simp] theorem State.latchKeys_status (keys : Keys) : (s.latchKeys keys).status = s.status := rfl
@[simp] theorem State.latchKeys_tone (keys : Keys) : (s.latchKeys keys).tone = s.tone := rfl
@[simp] theorem State.latchKeys_dispUpdated (keys : Keys) : (s.latchKeys keys).dispUpdated = s.dispUpdated := rfl
@[simp] theorem State.latchKeys_keys (keys : Keys) : (s.latchKeys keys).keys = s.keys := rfl
@[simp] theorem State.latchKeys_getV (keys : Keys) (r' : Reg) : (s.latchKeys keys).getV r' = s.getV r' := rfl
@[simp] theorem State.latchKeys_readByte (keys : Keys) (a' : Nat) : (s.latchKeys keys).readByte a' = s.readByte a' := rfl
@[simp] theorem State.latchKeys_dataAddr (keys : Keys) (j : Nat) : (s.latchKeys keys).dataAddr j = s.dataAddr j := rfl
@[simp] theorem State.latchKeys_spriteRow (keys : Keys) (j : Nat) : (s.latchKeys keys).spriteRow j = s.spriteRow j := rfl
@[simp] theorem State.latchKeys_fetchWord (keys : Keys) : (s.latchKeys keys).fetchWord = s.fetchWord := rfl
@[simp] theorem State.latchKeys_rndByte (keys : Keys) : (s.latchKeys keys).rndByte = s.rndByte := rfl

@[simp] theorem State.consumeKeys_v : (s.consumeKeys).v = s.v := rfl
@[simp] theorem State.consumeKeys_i : (s.consumeKeys).i = s.i := rfl
@[simp] theorem State.consumeKeys_pc : (s.consumeKeys).pc = s.pc := rfl
@[simp] theorem State.consumeKeys_stack : (s.consumeKeys).stack = s.stack := rfl
@[simp] theorem State.consumeKeys_sp : (s.consumeKeys).sp = s.sp := rfl
@[simp] theorem State.consumeKeys_dt : (s.consumeKeys).dt = s.dt := rfl
@[simp] theorem State.consumeKeys_st : (s.consumeKeys).st = s.st := rfl
@[simp] theorem State.consumeKeys_mem : (s.consumeKeys).mem = s.mem := rfl
@[simp] theorem State.consumeKeys_display : (s.consumeKeys).display = s.display := rfl
@[simp] theorem State.consumeKeys_k : (s.consumeKeys).k = s.k := rfl
@[simp] theorem State.consumeKeys_rng : (s.consumeKeys).rng = s.rng := rfl
@[simp] theorem State.consumeKeys_fault : (s.consumeKeys).fault = s.fault := rfl
@[simp] theorem State.consumeKeys_status : (s.consumeKeys).status = s.status := rfl
@[simp] theorem State.consumeKeys_tone : (s.consumeKeys).tone = s.tone := rfl
@[simp] theorem State.consumeKeys_dispUpdated : (s.consumeKeys).dispUpdated = s.dispUpdated := rfl
@[simp] theorem State.consumeKeys_keys : (s.consumeKeys).keys = (s.keys.take Config.keySnapshot).2 := rfl
@[simp] theorem State.consumeKeys_getV (r' : Reg) : (s.consumeKeys).getV r' = s.getV r' := rfl
@[simp] theorem State.consumeKeys_readByte (a' : Nat) : (s.consumeKeys).readByte a' = s.readByte a' := rfl
@[simp] theorem State.consumeKeys_dataAddr (j : Nat) : (s.consumeKeys).dataAddr j = s.dataAddr j := rfl
@[simp] theorem State.consumeKeys_leastKey : (s.consumeKeys).leastKey = s.leastKey := rfl
@[simp] theorem State.consumeKeys_keyDown (j : Nibble) : (s.consumeKeys).keyDown j = s.keyDown j := rfl
@[simp] theorem State.consumeKeys_spriteRow (j : Nat) : (s.consumeKeys).spriteRow j = s.spriteRow j := rfl
@[simp] theorem State.consumeKeys_fetchWord : (s.consumeKeys).fetchWord = s.fetchWord := rfl
@[simp] theorem State.consumeKeys_rndByte : (s.consumeKeys).rndByte = s.rndByte := rfl

@[simp] theorem State.tick_v : (s.tick).v = s.v := rfl
@[simp] theorem State.tick_i : (s.tick).i = s.i := rfl
@[simp] theorem State.tick_pc : (s.tick).pc = s.pc := rfl
@[simp] theorem State.tick_stack : (s.tick).stack = s.stack := rfl
@[simp] theorem State.tick_sp : (s.tick).sp = s.sp := rfl
@[simp] theorem State.tick_dt : (s.tick).dt = tickDown s.dt := rfl
@[simp] theorem State.tick_st : (s.tick).st = tickDown s.st := rfl
@[simp] theorem State.tick_mem : (s.tick).mem = s.mem := rfl
@[simp] theorem State.tick_display : (s.tick).display = s.display := rfl
@[simp] theorem State.tick_k : (s.tick).k = s.k := rfl
@[simp] theorem State.tick_rng : (s.tick).rng = s.rng := rfl
@[simp] theorem State.tick_fault : (s.tick).fault = s.fault := rfl
@[simp] theorem State.tick_status : (s.tick).status = s.status := rfl
@[simp] theorem State.tick_tone : (s.tick).tone = decide (s.st = 1#8) := rfl
@[simp] theorem State.tick_dispUpdated : (s.tick).dispUpdated = s.dispUpdated := rfl
@[simp] theorem State.tick_keys : (s.tick).keys = s.keys := rfl
@[simp] theorem State.tick_getV (r' : Reg) : (s.tick).getV r' = s.getV r' := rfl
@[simp] theorem State.tick_readByte (a' : Nat) : (s.tick).readByte a' = s.readByte a' := rfl
@[simp] theorem State.tick_dataAddr (j : Nat) : (s.tick).dataAddr j = s.dataAddr j := rfl
@[simp] theorem State.tick_leastKey : (s.tick).leastKey = s.leastKey := rfl
@[simp] theorem State.tick_keyDown (j : Nibble) : (s.tick).keyDown j = s.keyDown j := rfl
@[simp] theorem State.tick_spriteRow (j : Nat) : (s.tick).spriteRow j = s.spriteRow j := rfl
@[simp] theorem State.tick_fetchWord : (s.tick).fetchWord = s.fetchWord := rfl
@[simp] theorem State.tick_rndByte : (s.tick).rndByte = s.rndByte := rfl

@[simp] theorem State.opened_v (keys : Keys) : (s.opened keys).v = s.v := rfl
@[simp] theorem State.opened_i (keys : Keys) : (s.opened keys).i = s.i := rfl
@[simp] theorem State.opened_pc (keys : Keys) : (s.opened keys).pc = s.pc := rfl
@[simp] theorem State.opened_stack (keys : Keys) : (s.opened keys).stack = s.stack := rfl
@[simp] theorem State.opened_sp (keys : Keys) : (s.opened keys).sp = s.sp := rfl
@[simp] theorem State.opened_dt (keys : Keys) : (s.opened keys).dt = s.dt := rfl
@[simp] theorem State.opened_st (keys : Keys) : (s.opened keys).st = s.st := rfl
@[simp] theorem State.opened_mem (keys : Keys) : (s.opened keys).mem = s.mem := rfl
@[simp] theorem State.opened_display (keys : Keys) : (s.opened keys).display = s.display := rfl
@[simp] theorem State.opened_k (keys : Keys) : (s.opened keys).k = keys := rfl
@[simp] theorem State.opened_rng (keys : Keys) : (s.opened keys).rng = s.rng := rfl
@[simp] theorem State.opened_fault (keys : Keys) : (s.opened keys).fault = s.fault := rfl
@[simp] theorem State.opened_status (keys : Keys) : (s.opened keys).status = s.status := rfl
@[simp] theorem State.opened_tone (keys : Keys) : (s.opened keys).tone = false := rfl
@[simp] theorem State.opened_dispUpdated (keys : Keys) : (s.opened keys).dispUpdated = false := rfl
@[simp] theorem State.opened_keys (keys : Keys) : (s.opened keys).keys = s.keys := rfl
@[simp] theorem State.opened_getV (keys : Keys) (r' : Reg) : (s.opened keys).getV r' = s.getV r' := rfl
@[simp] theorem State.opened_readByte (keys : Keys) (a' : Nat) : (s.opened keys).readByte a' = s.readByte a' := rfl
@[simp] theorem State.opened_dataAddr (keys : Keys) (j : Nat) : (s.opened keys).dataAddr j = s.dataAddr j := rfl
@[simp] theorem State.opened_spriteRow (keys : Keys) (j : Nat) : (s.opened keys).spriteRow j = s.spriteRow j := rfl
@[simp] theorem State.opened_fetchWord (keys : Keys) : (s.opened keys).fetchWord = s.fetchWord := rfl
@[simp] theorem State.opened_rndByte (keys : Keys) : (s.opened keys).rndByte = s.rndByte := rfl

@[simp] theorem State.setFlag_v (b : Byte) : (s.setFlag b).v = s.v.set vF.toNat b vF.isLt := rfl
@[simp] theorem State.setFlag_i (b : Byte) : (s.setFlag b).i = s.i := rfl
@[simp] theorem State.setFlag_pc (b : Byte) : (s.setFlag b).pc = s.pc := rfl
@[simp] theorem State.setFlag_stack (b : Byte) : (s.setFlag b).stack = s.stack := rfl
@[simp] theorem State.setFlag_sp (b : Byte) : (s.setFlag b).sp = s.sp := rfl
@[simp] theorem State.setFlag_dt (b : Byte) : (s.setFlag b).dt = s.dt := rfl
@[simp] theorem State.setFlag_st (b : Byte) : (s.setFlag b).st = s.st := rfl
@[simp] theorem State.setFlag_mem (b : Byte) : (s.setFlag b).mem = s.mem := rfl
@[simp] theorem State.setFlag_display (b : Byte) : (s.setFlag b).display = s.display := rfl
@[simp] theorem State.setFlag_k (b : Byte) : (s.setFlag b).k = s.k := rfl
@[simp] theorem State.setFlag_rng (b : Byte) : (s.setFlag b).rng = s.rng := rfl
@[simp] theorem State.setFlag_fault (b : Byte) : (s.setFlag b).fault = s.fault := rfl
@[simp] theorem State.setFlag_status (b : Byte) : (s.setFlag b).status = s.status := rfl
@[simp] theorem State.setFlag_tone (b : Byte) : (s.setFlag b).tone = s.tone := rfl
@[simp] theorem State.setFlag_dispUpdated (b : Byte) : (s.setFlag b).dispUpdated = s.dispUpdated := rfl
@[simp] theorem State.setFlag_keys (b : Byte) : (s.setFlag b).keys = s.keys := rfl
@[simp] theorem State.setFlag_readByte (b : Byte) (a' : Nat) : (s.setFlag b).readByte a' = s.readByte a' := rfl
@[simp] theorem State.setFlag_dataAddr (b : Byte) (j : Nat) : (s.setFlag b).dataAddr j = s.dataAddr j := rfl
@[simp] theorem State.setFlag_leastKey (b : Byte) : (s.setFlag b).leastKey = s.leastKey := rfl
@[simp] theorem State.setFlag_keyDown (b : Byte) (j : Nibble) : (s.setFlag b).keyDown j = s.keyDown j := rfl
@[simp] theorem State.setFlag_spriteRow (b : Byte) (j : Nat) : (s.setFlag b).spriteRow j = s.spriteRow j := rfl
@[simp] theorem State.setFlag_fetchWord (b : Byte) : (s.setFlag b).fetchWord = s.fetchWord := rfl
@[simp] theorem State.setFlag_rndByte (b : Byte) : (s.setFlag b).rndByte = s.rndByte := rfl

@[simp] theorem State.show_v (d : Cells) : (s.show d).v = s.v := rfl
@[simp] theorem State.show_i (d : Cells) : (s.show d).i = s.i := rfl
@[simp] theorem State.show_pc (d : Cells) : (s.show d).pc = s.pc := rfl
@[simp] theorem State.show_stack (d : Cells) : (s.show d).stack = s.stack := rfl
@[simp] theorem State.show_sp (d : Cells) : (s.show d).sp = s.sp := rfl
@[simp] theorem State.show_dt (d : Cells) : (s.show d).dt = s.dt := rfl
@[simp] theorem State.show_st (d : Cells) : (s.show d).st = s.st := rfl
@[simp] theorem State.show_mem (d : Cells) : (s.show d).mem = s.mem := rfl
@[simp] theorem State.show_display (d : Cells) : (s.show d).display = d := rfl
@[simp] theorem State.show_k (d : Cells) : (s.show d).k = s.k := rfl
@[simp] theorem State.show_rng (d : Cells) : (s.show d).rng = s.rng := rfl
@[simp] theorem State.show_fault (d : Cells) : (s.show d).fault = s.fault := rfl
@[simp] theorem State.show_status (d : Cells) : (s.show d).status = s.status := rfl
@[simp] theorem State.show_tone (d : Cells) : (s.show d).tone = s.tone := rfl
@[simp] theorem State.show_dispUpdated (d : Cells) : (s.show d).dispUpdated = true := rfl
@[simp] theorem State.show_keys (d : Cells) : (s.show d).keys = s.keys := rfl
@[simp] theorem State.show_getV (d : Cells) (r' : Reg) : (s.show d).getV r' = s.getV r' := rfl
@[simp] theorem State.show_readByte (d : Cells) (a' : Nat) : (s.show d).readByte a' = s.readByte a' := rfl
@[simp] theorem State.show_dataAddr (d : Cells) (j : Nat) : (s.show d).dataAddr j = s.dataAddr j := rfl
@[simp] theorem State.show_leastKey (d : Cells) : (s.show d).leastKey = s.leastKey := rfl
@[simp] theorem State.show_keyDown (d : Cells) (j : Nibble) : (s.show d).keyDown j = s.keyDown j := rfl
@[simp] theorem State.show_spriteRow (d : Cells) (j : Nat) : (s.show d).spriteRow j = s.spriteRow j := rfl
@[simp] theorem State.show_fetchWord (d : Cells) : (s.show d).fetchWord = s.fetchWord := rfl
@[simp] theorem State.show_rndByte (d : Cells) : (s.show d).rndByte = s.rndByte := rfl

end Fields

end Sys2Proof.Machine
end

