-- ==== Sys2Proof/Laws/Ops.lean ====
section
/-! SUPPORT. One lemma per shared operation: what a read finds after it, and what it leaves alone. -/

namespace Sys2Proof.Machine

/-- A register read after a register write. -/
@[simp] theorem State.getV_setV (s : State) (r r' : Reg) (b : Byte) :
    (s.setV r b).getV r' = if r' = r then b else s.getV r' := by
  unfold State.getV State.setV
  by_cases h : r' = r
  · subst h; simp
  · have : r.toNat ≠ r'.toNat := fun e => h (BitVec.eq_of_toNat_eq e.symm)
    simp [h, Vector.getElem_set_ne, this]

@[simp] theorem State.getV_setFlag (s : State) (r' : Reg) (b : Byte) :
    (s.setFlag b).getV r' = if r' = vF then b else s.getV r' := State.getV_setV s vF r' b

/-- A byte read after a byte write, at any two sums: they meet when their effective addresses do (R41, R45). -/
@[simp] theorem State.readByte_writeByte (s : State) (a x : Nat) (b : Byte) :
    (s.writeByte a b).readByte x = if ea x = ea a then b else s.readByte x :=
  Memory.read_write s.mem (ea a) b (ea x)

theorem State.wf_writeByte {s : State} (a : Nat) (b : Byte) (h : Memory.wf s.mem = true) :
    Memory.wf (s.writeByte a b).mem = true := Memory.wf_write b (ea_lt a) h

theorem State.wf_reset : Memory.wf State.reset.mem = true := rfl

/-- A slot after a push (R15). -/
theorem State.stack_push (s : State) (a : Word) (h : s.sp.val < 16) (j : Fin 16) :
    (s.push a h).stack[j] = if j.val = s.sp.val then a else s.stack[j] := by
  simp only [State.push_stack, Fin.getElem_fin, Vector.getElem_set]
  by_cases hj : s.sp.val = j.val
  · simp [hj]
  · simp [hj, Ne.symm hj]

/-- The tick of a completed step, and nothing otherwise (R172). -/
theorem State.finish_done {s : State} (h : s.status = .done) : s.finish = s.tick := if_pos h

theorem State.finish_not_done {s : State} (h : s.status ≠ .done) : s.finish = s := if_neg h

/-- A timer after a tick: one less, and 0 stays 0 (R170). -/
theorem tickDown_toNat (t : Byte) : (tickDown t).toNat = t.toNat - 1 := by
  unfold tickDown
  split
  · next h => simp [h]
  · next h =>
    have h0 : t.toNat ≠ 0 := fun e => h (BitVec.eq_of_toNat_eq e)
    have := t.isLt
    rw [BitVec.toNat_sub]
    simp only [BitVec.toNat_ofNat]
    omega

/-- A source presents its supplied values first. -/
@[simp] theorem Feed.take_supplied {w : Nat} (free : Nat → BitVec w) (b : BitVec w) (bs : List (BitVec w)) (n : Nat) :
    Feed.take free ⟨b :: bs, n⟩ = (b, ⟨bs, n⟩) := rfl

/-- A source with nothing supplied presents a free value and counts it. -/
@[simp] theorem Feed.take_free {w : Nat} (free : Nat → BitVec w) (n : Nat) :
    Feed.take free ⟨[], n⟩ = (free n, ⟨[], n + 1⟩) := rfl

@[simp] theorem flagByte_toNat (p : Bool) : (flagByte p).toNat = if p then 1 else 0 := by cases p <;> rfl

theorem vF_toNat : vF.toNat = 15 := rfl

/-- A register is among those of a block transfer up to `x` exactly when its index is at most that of `x` (R120, R121). -/
theorem mem_regsUpTo : ∀ x r : Reg, r ∈ regsUpTo x ↔ r.toNat ≤ x.toNat := by decide

theorem regsUpTo_nodup : ∀ x : Reg, (regsUpTo x).Nodup := by decide

/-- What the stores of `LD [I], Vx` leave alone: everything but memory. -/
theorem storeAll_eq (rs : List Reg) (s : State) : storeAll rs s = { s with mem := (storeAll rs s).mem } := by
  induction rs generalizing s with
  | nil => rfl
  | cons r rs ih => exact (ih (s.storeReg r)).trans rfl

/-- What the loads of `LD Vx, [I]` leave alone: everything but the general registers. -/
theorem loadAll_eq (rs : List Reg) (s : State) : loadAll rs s = { s with v := (loadAll rs s).v } := by
  induction rs generalizing s with
  | nil => rfl
  | cons r rs ih => exact (ih (s.loadReg r)).trans rfl

theorem storeAll_wf (rs : List Reg) {s : State} (h : Memory.wf s.mem = true) : Memory.wf (storeAll rs s).mem = true := by
  induction rs generalizing s with
  | nil => exact h
  | cons r rs ih => exact ih (State.wf_writeByte _ _ h)

/-- The flag-writing order of R91: the flag first, then the result from the registers as they then stand. -/
theorem State.getV_flagThen (s : State) (flag : Byte) (x : Reg) (f : State → Byte) (r : Reg) :
    (s.flagThen flag x f).getV r = if r = x then f (s.setFlag flag) else if r = vF then flag else s.getV r := by
  simp [State.flagThen]

theorem State.flagThen_eq (s : State) (flag : Byte) (x : Reg) (f : State → Byte) :
    s.flagThen flag x f = { s with v := (s.flagThen flag x f).v } := rfl

/-- A cell after one cell is XORed with 1 (R131). -/
theorem cellAt_flipCell (d : Cells) (cx cx' : Fin 64) (cy cy' : Fin 32) :
    cellAt (flipCell d cx cy) cx' cy' = (cellAt d cx' cy' ^^ (decide (cx' = cx) && decide (cy' = cy))) := by
  unfold cellAt flipCell
  by_cases h : cy' = cy
  · subst h
    by_cases hx : cx' = cx
    · subst hx; simp
    · have : cx.val ≠ cx'.val := fun e => hx (Fin.ext e.symm)
      simp [hx, Ne.symm this]
  · have : cy.val ≠ cy'.val := fun e => h (Fin.ext e.symm)
    simp [Vector.getElem_set_ne, this, h]

@[simp] theorem cellAt_clearCells (cx : Fin 64) (cy : Fin 32) : cellAt clearCells cx cy = false := by
  simp [cellAt, clearCells]

/-- One sprite bit on one cell: the cells after it (R131). -/
theorem drawBit_cells (cx cx' : Fin 64) (cy cy' : Fin 32) (bit : Bool) (c : Canvas) :
    cellAt (drawBit cx cy bit c).cells cx' cy' =
      (cellAt c.cells cx' cy' ^^ (bit && (decide (cx' = cx) && decide (cy' = cy)))) := by
  unfold drawBit
  cases bit <;> simp [cellAt_flipCell]

/-- One sprite bit on one cell: the collision after it (R131). -/
theorem drawBit_hit (cx : Fin 64) (cy : Fin 32) (bit : Bool) (c : Canvas) :
    (drawBit cx cy bit c).hit = (c.hit || (bit && cellAt c.cells cx cy)) := by
  unfold drawBit
  cases bit <;> simp

end Sys2Proof.Machine
end

