-- ==== Sys2Proof/Laws/Block.lean ====
section
/-! SUPPORT. What the block transfers and the key search do, as a whole: the byte each address holds after the stores, the
value each register holds after the loads, and which key is the least. -/

namespace Sys2Proof.Machine

/-- Two registers of a transfer meet at one byte only when they are one: sixteen addresses in a row are distinct (R126). -/
theorem dataAddr_inj (s : State) {r r' : Reg} (h : ea (s.dataAddr r.toNat) = ea (s.dataAddr r'.toNat)) : r = r' := by
  have := r.isLt
  have := r'.isLt
  have h' : (s.i.toNat + r.toNat) % 4096 = (s.i.toNat + r'.toNat) % 4096 := h
  exact BitVec.eq_of_toNat_eq (by omega)

/-- A byte after the stores, at an address of a register that is stored (R120). -/
theorem readByte_storeAll_of_mem {rs : List Reg} (s : State) {r : Reg} (hr : r ∈ rs) :
    (storeAll rs s).readByte (s.dataAddr r.toNat) = s.getV r := by
  suffices h : ∀ (rs : List Reg) (u : State), u.i = s.i → u.v = s.v →
      (r ∈ rs ∨ u.readByte (s.dataAddr r.toNat) = s.getV r) →
      (storeAll rs u).readByte (s.dataAddr r.toNat) = s.getV r from h rs s rfl rfl (.inl hr)
  intro rs
  induction rs with
  | nil => exact fun u _ _ h => h.resolve_left (List.not_mem_nil)
  | cons q rs ih =>
    intro u hi hv h
    refine ih (u.storeReg q) hi hv ?_
    by_cases hq : q = r
    · right
      subst hq
      have ha : u.dataAddr q.toNat = s.dataAddr q.toNat := by simp [State.dataAddr, hi]
      have hg : u.getV q = s.getV q := by simp [State.getV, hv]
      simp [State.storeReg, ha, hg]
    · rcases h with h | h
      · exact .inl ((List.mem_cons.mp h).resolve_left (Ne.symm hq))
      · right
        have ha : u.dataAddr q.toNat = s.dataAddr q.toNat := by simp [State.dataAddr, hi]
        rw [State.storeReg, State.readByte_writeByte, ha, if_neg fun e => hq (dataAddr_inj s e).symm, h]

/-- A byte after the stores, at any other address (R120). -/
theorem readByte_storeAll_of_ne (rs : List Reg) (s : State) (a : Nat)
    (h : ∀ r ∈ rs, ea a ≠ ea (s.dataAddr r.toNat)) : (storeAll rs s).readByte a = s.readByte a := by
  induction rs generalizing s with
  | nil => rfl
  | cons q rs ih =>
    refine (ih (s.storeReg q) fun r hr => h r (List.mem_cons_of_mem _ hr)).trans ?_
    rw [State.storeReg, State.readByte_writeByte, if_neg (h q List.mem_cons_self)]

/-- A register after the loads (R121). -/
theorem getV_loadAll (rs : List Reg) (s : State) (r : Reg) :
    (loadAll rs s).getV r = if r ∈ rs then s.readByte (s.dataAddr r.toNat) else s.getV r := by
  induction rs generalizing s with
  | nil => rfl
  | cons q rs ih =>
    refine (ih (s.loadReg q)).trans ?_
    have hb : (s.loadReg q).readByte ((s.loadReg q).dataAddr r.toNat) = s.readByte (s.dataAddr r.toNat) := rfl
    rw [hb]
    by_cases hr : r ∈ rs
    · simp [hr]
    · by_cases hq : r = q
      · subst hq; simp [State.loadReg]
      · simp [hr, hq, State.loadReg]

/-- A byte after the three digits are stored (R122): the last of them that falls on its effective address. -/
theorem readByte_storeDigits (v : Byte) (s : State) (a : Nat) :
    (storeDigits v s).readByte a =
      if ea a = ea (s.dataAddr 2) then ones v
      else if ea a = ea (s.dataAddr 1) then tens v
      else if ea a = ea (s.dataAddr 0) then hundreds v else s.readByte a := by
  simp only [storeDigits, State.readByte_writeByte]

/-- With no key down there is no least key (R142). -/
theorem leastKey_none {s : State} (h : ∀ j < 16, s.k.getLsbD j = false) : s.leastKey = none := by
  rw [State.leastKey, List.find?_eq_none]
  intro r _
  simp [State.keyDown, h r.toNat r.isLt]

/-- `LD Vx, K` awaits exactly when no key is down (R142). -/
theorem leastKey_eq_none {s : State} : s.leastKey = none ↔ s.k = 0#16 := by
  refine ⟨fun h => BitVec.eq_of_getLsbD_eq fun j hj => ?_, fun h => leastKey_none fun j _ => by simp [h]⟩
  have hmem : ∀ r : Reg, r ∈ allRegs := by decide
  have hk := List.find?_eq_none.mp h (BitVec.ofNat 4 j) (hmem _)
  simpa [State.keyDown, Nat.mod_eq_of_lt hj] using hk

/-- The least key is the one with every lower key up (R142). -/
theorem leastKey_some {s : State} {j : Nat} (hj : j < 16) (h : s.k.getLsbD j = true)
    (hl : ∀ l < j, s.k.getLsbD l = false) : s.leastKey = some (BitVec.ofNat 4 j) := by
  have e : (BitVec.ofNat 4 j).toNat = j := by simp; omega
  rw [State.leastKey, List.find?_eq_some_iff_append]
  refine ⟨by simp only [State.keyDown, e, h], allRegs.take j, allRegs.drop (j + 1), ?_, fun r hr => ?_⟩
  · clear h hl e
    interval_cases j <;> rfl
  · have : r.toNat < j := by
      revert r
      clear h hl e
      interval_cases j <;> decide
    simp [State.keyDown, hl _ this]

end Sys2Proof.Machine
end

