-- ==== Sys2Proof/Laws/Display.lean ====
section
/-! SUPPORT. What a run of sprite bits over distinct cells does to a canvas (R131), and a sprite as such a run. -/

namespace Sys2Proof.Machine

/-- Sprite bits on cells, one after the other. -/
def drawBits (ts : List ((Fin 64 × Fin 32) × Bool)) (c : Canvas) : Canvas :=
  ts.foldl (fun c t => drawBit t.1.1 t.1.2 t.2 c) c

/-- A bit on another cell leaves a cell as it is. -/
theorem cellAt_drawBit_ne {p q : Fin 64 × Fin 32} (h : q ≠ p) (bit : Bool) (c : Canvas) :
    cellAt (drawBit p.1 p.2 bit c).cells q.1 q.2 = cellAt c.cells q.1 q.2 := by
  have e : (decide (q.1 = p.1) && decide (q.2 = p.2)) = false :=
    Bool.eq_false_iff.mpr fun hh => h (by
      rw [Bool.and_eq_true, decide_eq_true_eq, decide_eq_true_eq] at hh
      exact Prod.ext hh.1 hh.2)
  simp [drawBit_cells, e]

/-- A cell no bit falls on is unchanged. -/
theorem cellAt_drawBits_of_ne (ts : List ((Fin 64 × Fin 32) × Bool)) (c : Canvas) (q : Fin 64 × Fin 32)
    (h : ∀ t ∈ ts, q ≠ t.1) : cellAt (drawBits ts c).cells q.1 q.2 = cellAt c.cells q.1 q.2 := by
  induction ts generalizing c with
  | nil => rfl
  | cons t ts ih =>
    exact (ih _ fun u hu => h u (List.mem_cons_of_mem _ hu)).trans (cellAt_drawBit_ne (h t List.mem_cons_self) _ _)

/-- A cell one bit falls on is XORed with it. -/
theorem cellAt_drawBits_of_mem {ts : List ((Fin 64 × Fin 32) × Bool)} (c : Canvas) (hd : (ts.map (·.1)).Nodup)
    {t : (Fin 64 × Fin 32) × Bool} (ht : t ∈ ts) :
    cellAt (drawBits ts c).cells t.1.1 t.1.2 = (cellAt c.cells t.1.1 t.1.2 != t.2) := by
  induction ts generalizing c with
  | nil => exact absurd ht List.not_mem_nil
  | cons u ts ih =>
    rw [List.map_cons, List.nodup_cons] at hd
    rcases List.mem_cons.mp ht with rfl | hm
    · refine (cellAt_drawBits_of_ne ts _ t.1 fun w hw e => hd.1 (List.mem_map.mpr ⟨w, hw, e.symm⟩)).trans ?_
      simp [drawBit_cells]
    · refine (ih _ hd.2 hm).trans ?_
      rw [cellAt_drawBit_ne (q := t.1) (p := u.1) fun e => hd.1 (List.mem_map.mpr ⟨t, hm, e⟩)]

/-- A collision: some set bit falls on a set cell. -/
theorem drawBits_hit {ts : List ((Fin 64 × Fin 32) × Bool)} (c : Canvas) (hd : (ts.map (·.1)).Nodup) :
    (drawBits ts c).hit = true ↔ c.hit = true ∨ ∃ t ∈ ts, t.2 = true ∧ cellAt c.cells t.1.1 t.1.2 = true := by
  induction ts generalizing c with
  | nil => simp [drawBits]
  | cons u ts ih =>
    rw [List.map_cons, List.nodup_cons] at hd
    refine (ih (drawBit u.1.1 u.1.2 u.2 c) hd.2).trans ?_
    rw [drawBit_hit, Bool.or_eq_true, Bool.and_eq_true, List.exists_mem_cons_iff, or_assoc]
    refine or_congr_right (or_congr_right (exists_congr fun t => and_congr_right fun ht => ?_))
    rw [cellAt_drawBit_ne (q := t.1) (p := u.1) fun e => hd.1 (List.mem_map.mpr ⟨t, ht, e⟩)]

/-- The bits of a sprite in drawing order: rows from the top, columns from the left. -/
def spriteBits (px py : Byte) (n : Nat) (rows : Nat → Byte) : List ((Fin 64 × Fin 32) × Bool) :=
  (List.range n).flatMap fun row =>
    (List.range 8).map fun col => ((targetX px col, targetY py row), spriteBit (rows row) col)

theorem drawSprite_eq (px py : Byte) (n : Nat) (rows : Nat → Byte) (c : Canvas) :
    drawSprite px py n rows c = drawBits (spriteBits px py n rows) c := by
  unfold drawSprite spriteBits drawBits
  rw [List.foldl_flatMap]
  simp only [List.foldl_map]
  rfl

theorem mem_spriteBits {px py : Byte} {n : Nat} {rows : Nat → Byte} {t : (Fin 64 × Fin 32) × Bool} :
    t ∈ spriteBits px py n rows ↔
      ∃ row col, row < n ∧ col < 8 ∧ t = ((targetX px col, targetY py row), spriteBit (rows row) col) := by
  simp only [spriteBits, List.mem_flatMap, List.mem_range, List.mem_map]
  constructor
  · rintro ⟨row, hr, col, hc, rfl⟩
    exact ⟨row, col, hr, hc, rfl⟩
  · rintro ⟨row, col, hr, hc, rfl⟩
    exact ⟨row, hr, col, hc, rfl⟩

/-- The bits of one sprite fall on distinct cells: at most 8 columns of 64 and 15 rows of 32. -/
theorem spriteBits_nodup (px py : Byte) {n : Nat} (rows : Nat → Byte) (hn : n ≤ 15) :
    ((spriteBits px py n rows).map (·.1)).Nodup := by
  rw [spriteBits, List.map_flatMap]
  simp only [List.map_map]
  refine List.nodup_flatMap.mpr ⟨fun row _ => List.Nodup.map_on (fun a ha b hb e => ?_) List.nodup_range,
    List.Pairwise.imp_of_mem (fun ha hb hab => ?_) List.nodup_range⟩
  · simp [targetX] at e ha hb
    omega
  · simp only [Function.onFun, List.disjoint_left, List.mem_map, not_exists, not_and]
    rintro t ⟨c, _, rfl⟩ c' _ e
    simp [targetY] at e ha hb
    omega

end Sys2Proof.Machine
end

