-- ==== Sys2Proof/Laws/PerInstr.lean ====
section
/-! SUPPORT. The family EncodesRow (LAWS.json): every instruction's word matches its own row of the opcode map (R70), one lemma
per constructor, each from the fixed bits of its format (R61). -/

namespace Sys2Proof.Laws.EncodesRow

/-- The word the encoder writes for `i` has the fixed bits of `i`'s row (R70). -/
def Statement (i : Instr) : Prop := encode i &&& i.maskMatch.1 = i.maskMatch.2

/-- The group of a word of format NNN. -/
theorem formNNN_group (op : BitVec 4) (nnn : Addr12) : formNNN op nnn &&& 0xF000#16 = op.setWidth 16 <<< 12 := by
  refine BitVec.eq_of_getLsbD_eq fun j hj => ?_
  interval_cases j <;> simp [formNNN]

/-- The group of a word of format XKK. -/
theorem formXKK_group (op : BitVec 4) (x : Reg) (kk : Byte) :
    formXKK op x kk &&& 0xF000#16 = op.setWidth 16 <<< 12 := by
  refine BitVec.eq_of_getLsbD_eq fun j hj => ?_
  interval_cases j <;> simp [formXKK]

/-- The group and the low byte of a word of format XKK. -/
theorem formXKK_low (op : BitVec 4) (x : Reg) (kk : Byte) :
    formXKK op x kk &&& 0xF0FF#16 = op.setWidth 16 <<< 12 ||| kk.setWidth 16 := by
  refine BitVec.eq_of_getLsbD_eq fun j hj => ?_
  interval_cases j <;> simp [formXKK]

/-- The group of a word of format XYN. -/
theorem formXYN_group (op : BitVec 4) (x y : Reg) (n : Nibble) :
    formXYN op x y n &&& 0xF000#16 = op.setWidth 16 <<< 12 := by
  refine BitVec.eq_of_getLsbD_eq fun j hj => ?_
  interval_cases j <;> simp [formXYN]

/-- The group and the low nibble of a word of format XYN. -/
theorem formXYN_low (op : BitVec 4) (x y : Reg) (n : Nibble) :
    formXYN op x y n &&& 0xF00F#16 = op.setWidth 16 <<< 12 ||| n.setWidth 16 := by
  refine BitVec.eq_of_getLsbD_eq fun j hj => ?_
  interval_cases j <;> simp [formXYN]

theorem cls : Statement .cls := rfl

theorem ret : Statement .ret := rfl

theorem jp (nnn : Addr12) : Statement (.jp nnn) := (formNNN_group _ _).trans rfl

theorem call (nnn : Addr12) : Statement (.call nnn) := (formNNN_group _ _).trans rfl

theorem seImm (x : Reg) (kk : Byte) : Statement (.seImm x kk) := (formXKK_group _ _ _).trans rfl

theorem sneImm (x : Reg) (kk : Byte) : Statement (.sneImm x kk) := (formXKK_group _ _ _).trans rfl

theorem seReg (x : Reg) (y : Reg) : Statement (.seReg x y) := (formXYN_low _ _ _ _).trans rfl

theorem ldImm (x : Reg) (kk : Byte) : Statement (.ldImm x kk) := (formXKK_group _ _ _).trans rfl

theorem addImm (x : Reg) (kk : Byte) : Statement (.addImm x kk) := (formXKK_group _ _ _).trans rfl

theorem ldReg (x : Reg) (y : Reg) : Statement (.ldReg x y) := (formXYN_low _ _ _ _).trans rfl

theorem or (x : Reg) (y : Reg) : Statement (.or x y) := (formXYN_low _ _ _ _).trans rfl

theorem and (x : Reg) (y : Reg) : Statement (.and x y) := (formXYN_low _ _ _ _).trans rfl

theorem xor (x : Reg) (y : Reg) : Statement (.xor x y) := (formXYN_low _ _ _ _).trans rfl

theorem addReg (x : Reg) (y : Reg) : Statement (.addReg x y) := (formXYN_low _ _ _ _).trans rfl

theorem sub (x : Reg) (y : Reg) : Statement (.sub x y) := (formXYN_low _ _ _ _).trans rfl

theorem shr (x : Reg) (y : Reg) : Statement (.shr x y) := (formXYN_low _ _ _ _).trans rfl

theorem subn (x : Reg) (y : Reg) : Statement (.subn x y) := (formXYN_low _ _ _ _).trans rfl

theorem shl (x : Reg) (y : Reg) : Statement (.shl x y) := (formXYN_low _ _ _ _).trans rfl

theorem sneReg (x : Reg) (y : Reg) : Statement (.sneReg x y) := (formXYN_low _ _ _ _).trans rfl

theorem ldI (nnn : Addr12) : Statement (.ldI nnn) := (formNNN_group _ _).trans rfl

theorem jpV0 (nnn : Addr12) : Statement (.jpV0 nnn) := (formNNN_group _ _).trans rfl

theorem rnd (x : Reg) (kk : Byte) : Statement (.rnd x kk) := (formXKK_group _ _ _).trans rfl

theorem drw (x : Reg) (y : Reg) (n : Nibble) : Statement (.drw x y n) := (formXYN_group _ _ _ _).trans rfl

theorem skp (x : Reg) : Statement (.skp x) := (formXKK_low _ _ _).trans rfl

theorem sknp (x : Reg) : Statement (.sknp x) := (formXKK_low _ _ _).trans rfl

theorem ldFromDT (x : Reg) : Statement (.ldFromDT x) := (formXKK_low _ _ _).trans rfl

theorem ldKey (x : Reg) : Statement (.ldKey x) := (formXKK_low _ _ _).trans rfl

theorem ldDT (x : Reg) : Statement (.ldDT x) := (formXKK_low _ _ _).trans rfl

theorem ldST (x : Reg) : Statement (.ldST x) := (formXKK_low _ _ _).trans rfl

theorem addI (x : Reg) : Statement (.addI x) := (formXKK_low _ _ _).trans rfl

theorem ldFont (x : Reg) : Statement (.ldFont x) := (formXKK_low _ _ _).trans rfl

theorem ldBcd (x : Reg) : Statement (.ldBcd x) := (formXKK_low _ _ _).trans rfl

theorem storeRegs (x : Reg) : Statement (.storeRegs x) := (formXKK_low _ _ _).trans rfl

theorem loadRegs (x : Reg) : Statement (.loadRegs x) := (formXKK_low _ _ _).trans rfl

end Sys2Proof.Laws.EncodesRow
end

