-- ==== Sys2Proof/Laws/Step.lean ====
section
/-! SUPPORT. What `exec` and `stepKeys` can answer, said once: later proofs cite these and unfold neither. -/

namespace Sys2Proof.Machine

/-- `exec` answers a next state for every instruction in every state (log entry 4). -/
theorem exec_next (i : Instr) (s : State) : ∃ t, exec i s = .next t := by
  cases i
  case ret => simp only [exec, execRet]; split <;> exact ⟨_, rfl⟩
  case call nnn => simp only [exec, execCall]; split <;> exact ⟨_, rfl⟩
  all_goals exact ⟨_, rfl⟩

/-- The four ways an instruction ends: completed, awaiting a key, StackOverflow, StackUnderflow. -/
theorem exec_cases {i : Instr} {s t : State} (h : exec i s = .next t) :
    (t.status = .done ∧ t.fault = s.fault) ∨ ((∃ x, i = .ldKey x) ∧ s.leastKey = none ∧ t = s.await) ∨
      ((∃ nnn, i = .call nnn) ∧ ¬ s.sp.val < 16 ∧ t = s.raise .stackOverflow) ∨
      (i = .ret ∧ ¬ 0 < s.sp.val ∧ t = s.raise .stackUnderflow) := by
  cases i
  case ret =>
    simp only [exec, execRet] at h
    split at h <;> cases h
    · exact .inl ⟨rfl, rfl⟩
    · exact .inr (.inr (.inr ⟨rfl, ‹_›, rfl⟩))
  case call nnn =>
    simp only [exec, execCall] at h
    split at h <;> cases h
    · exact .inl ⟨rfl, rfl⟩
    · exact .inr (.inr (.inl ⟨⟨_, rfl⟩, ‹_›, rfl⟩))
  case ldKey x =>
    cases h
    split
    · exact .inr (.inl ⟨⟨_, rfl⟩, ‹_›, rfl⟩)
    · exact .inl ⟨rfl, rfl⟩
  case storeRegs x => cases h; left; rw [storeAll_eq]; exact ⟨rfl, rfl⟩
  case loadRegs x => cases h; left; rw [loadAll_eq]; exact ⟨rfl, rfl⟩
  all_goals (cases h; exact .inl ⟨rfl, rfl⟩)

/-- A halted step (R166). -/
theorem stepKeys_halted (keys : Keys) {s : State} {f : Fault} (h : s.fault = some f) :
    stepKeys keys s = .next (s.clearPulses.reportFault f) := by simp only [stepKeys, h]

/-- A step whose word selects no instruction (R161). -/
theorem stepKeys_undecodable (keys : Keys) {s : State} {e : DecodeReject} (h : s.fault = none)
    (hd : decodeWord s.fetchWord = .error e) :
    stepKeys keys s = .next ((s.opened keys).raise (.decodeError s.fetchWord)) := by
  have hw : (s.opened keys).fetchWord = s.fetchWord := rfl
  simp only [stepKeys, h, hw, hd]

/-- A step that runs an instruction (R80 stages 5 and 6). -/
theorem stepKeys_runs {keys : Keys} {s u : State} {i : Instr} (h : s.fault = none)
    (hd : decodeWord s.fetchWord = .ok i) (hu : exec i (s.opened keys) = .next u) :
    stepKeys keys s = .next u.finish := by
  have hw : (s.opened keys).fetchWord = s.fetchWord := rfl
  simp only [stepKeys, h, hw, hd, runInstr, hu]

/-- Everything a step can be: halted, undecodable, or one instruction and its end. -/
theorem stepKeys_cases (keys : Keys) (s : State) :
    (∃ f, s.fault = some f ∧ stepKeys keys s = .next (s.clearPulses.reportFault f)) ∨
      (∃ e, s.fault = none ∧ decodeWord s.fetchWord = .error e ∧
        stepKeys keys s = .next ((s.opened keys).raise (.decodeError s.fetchWord))) ∨
      (∃ i u, s.fault = none ∧ decodeWord s.fetchWord = .ok i ∧ exec i (s.opened keys) = .next u ∧
        stepKeys keys s = .next u.finish) := by
  cases hf : s.fault with
  | some f => exact .inl ⟨f, rfl, stepKeys_halted keys hf⟩
  | none =>
    right
    cases hd : decodeWord s.fetchWord with
    | error e => exact .inl ⟨e, rfl, rfl, stepKeys_undecodable keys hf hd⟩
    | ok i =>
      obtain ⟨u, hu⟩ := exec_next i (s.opened keys)
      exact .inr ⟨i, u, rfl, rfl, hu, stepKeys_runs hf hd hu⟩

end Sys2Proof.Machine
end

