-- ==== Sys2Proof/Tests/Slice0.lean ====
section
/-! SUPPORT. Tests of the model against the spec's worked examples (spec/95_test_vectors.md; the row is named at each test), the
well-formedness smoke tests, one decoded word per constructor, and for each obligation with hypotheses a concrete state and
operands that meet them (`test_witness_<Obligation>`). One step each, on small states. -/

namespace Sys2Proof.Tests

open Sys2Proof Sys2Proof.Machine

/-! ## Helpers -/

/-- A state with the instruction word `w` where the next step fetches it. -/
def start (w : Nat) (s : State := State.reset) : State := s.withFetchWord 16 w

/-- The state after one step with snapshot `keys`. -/
def after (s : State) (keys : Keys := 0#16) : State :=
  match stepKeys keys s with
  | .next t => t
  | .fault _ | .refused _ => s

/-- The reset state with some registers set. -/
def withV (l : List (Reg × Byte)) (s : State := State.reset) : State := l.foldl (fun s p => s.setV p.1 p.2) s

/-- A state with some bytes of memory set. -/
def withM (l : List (Nat × Byte)) (s : State := State.reset) : State := l.foldl (fun s p => s.writeByte p.1 p.2) s

/-- A state with a call stack of depth `d`, slot `j` holding `a`. -/
def withStack (d : Fin 17) (j : Fin 16) (a : Word) (s : State := State.reset) : State :=
  { s with sp := d, stack := s.stack.set j.val a j.isLt }

/-- A display with these cells set. -/
def lit (l : List (Fin 64 × Fin 32)) : Cells := l.foldl (fun d p => flipCell d p.1 p.2) clearCells

/-- The outcome of a step. -/
def outcome (s : State) (keys : Keys := 0#16) : Status := (after s keys).status

/-! ## Well-formedness smoke tests: one ill-formed term for each check -/

/-- The check looks at the length alone. -/
theorem rom_wf_replicate (n : Nat) (b : Byte) : Rom.wf (List.replicate n b) = decide (n ≤ 3584) := by
  rw [Rom.wf, List.length_replicate]
  rfl

/-- T-LOAD 4 and 5: 3584 bytes are accepted, 3585 are not. -/
theorem test_wf_rom_too_long : Rom.wf (List.replicate 3585 0#8) = false ∧ Rom.wf (List.replicate 3584 0#8) = true := by
  rw [rom_wf_replicate, rom_wf_replicate]
  decide

/-- 10_state.md section 4: depths 0 to 16. -/
theorem test_wf_depth_17 : Depth.wf 17 = false ∧ Depth.wf 16 = true := by decide

theorem test_wf_memory_unsorted : Memory.wf [(0x301, 1#8), (0x300, 1#8)] = false := by decide

theorem test_wf_memory_repeated : Memory.wf [(0x300, 1#8), (0x300, 2#8)] = false := by decide

theorem test_wf_memory_lists_a_default : Memory.wf [(0x000, 0xF0#8)] = false ∧ Memory.wf [(0x300, 0#8)] = false := by decide

theorem test_wf_memory_outside : Memory.wf [(0x1000, 1#8)] = false := by decide

/-- Writing what an unlisted byte reads as removes the entry. -/
theorem test_memory_write_default_removes :
    Memory.write (Memory.write [] 0x000 0x55#8) 0x000 0xF0#8 = [] ∧ Memory.write [(0x300, 5#8)] 0x300 0#8 = [] := by
  decide

/-- The ill-formed words, one for each line of 30_encoding.md section 4 (T-DEC 2, 4, 6, 5, 8, 10), and no word at all. -/
theorem test_reserved_words_refused :
    decodeWord 0x0123#16 = .error .reservedGroup0 ∧ decodeWord 0x5231#16 = .error .reservedGroup5 ∧
      decodeWord 0x8008#16 = .error .reservedGroup8 ∧ decodeWord 0x9231#16 = .error .reservedGroup9 ∧
      decodeWord 0xE09F#16 = .error .reservedGroupE ∧ decodeWord 0xF075#16 = .error .reservedGroupF ∧
      decodeBytes [0x60#8] = .error .truncated := ⟨rfl, rfl, rfl, rfl, rfl, rfl, rfl⟩

/-- T-DEC 1, 3, 7, 9, 11, 12. -/
theorem test_reserved_words_refused_more :
    decodeWord 0x0000#16 = .error .reservedGroup0 ∧ decodeWord 0x01E0#16 = .error .reservedGroup0 ∧
      decodeWord 0x800F#16 = .error .reservedGroup8 ∧ decodeWord 0xF000#16 = .error .reservedGroupF ∧
      decodeWord 0xF085#16 = .error .reservedGroupF ∧ decodeWord 0xFFFF#16 = .error .reservedGroupF :=
  ⟨rfl, rfl, rfl, rfl, rfl, rfl⟩

/-! ## Decoding: a word for every constructor, written from the patterns of 30_encoding.md section 3 -/

theorem test_decode_group0 : EncodedAs 0x00E0 .cls ∧ EncodedAs 0x00EE .ret := ⟨rfl, rfl⟩

theorem test_decode_nnn : EncodedAs 0x1ABC (.jp 0xABC#12) ∧ EncodedAs 0x2DEF (.call 0xDEF#12) ∧
    EncodedAs 0xA2F0 (.ldI 0x2F0#12) ∧ EncodedAs 0xBFFF (.jpV0 0xFFF#12) := ⟨rfl, rfl, rfl, rfl⟩

theorem test_decode_xkk : EncodedAs 0x3A5C (.seImm 0xA#4 0x5C#8) ∧ EncodedAs 0x4B6D (.sneImm 0xB#4 0x6D#8) ∧
    EncodedAs 0x6C7E (.ldImm 0xC#4 0x7E#8) ∧ EncodedAs 0x7D8F (.addImm 0xD#4 0x8F#8) ∧
    EncodedAs 0xCE90 (.rnd 0xE#4 0x90#8) := ⟨rfl, rfl, rfl, rfl, rfl⟩

theorem test_decode_group8 : EncodedAs 0x8120 (.ldReg 1#4 2#4) ∧ EncodedAs 0x8231 (.or 2#4 3#4) ∧
    EncodedAs 0x8342 (.and 3#4 4#4) ∧ EncodedAs 0x8453 (.xor 4#4 5#4) ∧ EncodedAs 0x8564 (.addReg 5#4 6#4) ∧
    EncodedAs 0x8675 (.sub 6#4 7#4) ∧ EncodedAs 0x8786 (.shr 7#4 8#4) ∧ EncodedAs 0x8897 (.subn 8#4 9#4) ∧
    EncodedAs 0x89AE (.shl 9#4 0xA#4) := ⟨rfl, rfl, rfl, rfl, rfl, rfl, rfl, rfl, rfl⟩

theorem test_decode_xyn : EncodedAs 0x5230 (.seReg 2#4 3#4) ∧ EncodedAs 0x9340 (.sneReg 3#4 4#4) ∧
    EncodedAs 0xD45B (.drw 4#4 5#4 0xB#4) := ⟨rfl, rfl, rfl⟩

theorem test_decode_groupE : EncodedAs 0xE59E (.skp 5#4) ∧ EncodedAs 0xE6A1 (.sknp 6#4) := ⟨rfl, rfl⟩

theorem test_decode_groupF : EncodedAs 0xF107 (.ldFromDT 1#4) ∧ EncodedAs 0xF20A (.ldKey 2#4) ∧
    EncodedAs 0xF315 (.ldDT 3#4) ∧ EncodedAs 0xF418 (.ldST 4#4) ∧ EncodedAs 0xF51E (.addI 5#4) ∧
    EncodedAs 0xF629 (.ldFont 6#4) ∧ EncodedAs 0xF733 (.ldBcd 7#4) ∧ EncodedAs 0xF855 (.storeRegs 8#4) ∧
    EncodedAs 0xF965 (.loadRegs 9#4) := ⟨rfl, rfl, rfl, rfl, rfl, rfl, rfl, rfl, rfl⟩

/-- The encoder on the formats' extremes (30_encoding.md section 1). -/
theorem test_encode_formats : encode (.jp 0xABC#12) = 0x1ABC#16 ∧ encode (.rnd 0xE#4 0x90#8) = 0xCE90#16 ∧
    encode (.drw 4#4 5#4 0xB#4) = 0xD45B#16 ∧ encode (.shl 9#4 0xA#4) = 0x89AE#16 ∧
    encode (.loadRegs 0xF#4) = 0xFF65#16 := by decide

theorem test_decodeTableWord : decodeTableWord 16 0xD45B = some (.drw 4#4 5#4 0xB#4) ∧ decodeTableWord 16 0x0123 = none :=
  ⟨rfl, rfl⟩

/-! ## Arithmetic, logic and registers (T-ALU) -/

/-- T-ALU 1. -/
theorem test_ldImm : (after (start 0x6FAB)).getV 0xF#4 = 0xAB#8 ∧ (after (start 0x6FAB)).pc = 0x0202#16 := by decide

/-- T-ALU 2, 3. -/
theorem test_addImm : let t := after (start 0x73FF (withV [(3, 1)]))
    t.getV 3 = 0#8 ∧ t.getV 0xF#4 = 0#8 ∧ (after (start 0x7F01 (withV [(0xF, 0xFF)]))).getV 0xF#4 = 0#8 := by decide

/-- T-ALU 4. -/
theorem test_ldReg : (after (start 0x8120 (withV [(1, 1), (2, 0x7E)]))).getV 1 = 0x7E#8 := by decide

/-- T-ALU 5. -/
theorem test_or : let t := after (start 0x8011 (withV [(0, 0xF0), (1, 0x0F), (0xF, 0x55)]))
    t.getV 0 = 0xFF#8 ∧ t.getV 0xF#4 = 0x55#8 := by decide

/-- T-ALU 6. -/
theorem test_and : (after (start 0x8012 (withV [(0, 0xF3), (1, 0x3C)]))).getV 0 = 0x30#8 := by decide

/-- T-ALU 7. -/
theorem test_xor : (after (start 0x8013 (withV [(0, 0xFF), (1, 0x0F)]))).getV 0 = 0xF0#8 := by decide

/-- T-ALU 9, 11 (W1). -/
theorem test_addReg : let t := after (start 0x8014 (withV [(0, 0xFF), (1, 1), (0xF, 0x77)]))
    let u := after (start 0x8014 (withV [(0, 0xFE), (1, 1), (0xF, 0x77)]))
    t.getV 0 = 0#8 ∧ t.getV 0xF#4 = 1#8 ∧ u.getV 0 = 0xFF#8 ∧ u.getV 0xF#4 = 0#8 := by decide

/-- T-ALU 15, 17, 19: VF as an operand. -/
theorem test_addReg_vf : (after (start 0x8F14 (withV [(0xF, 0xF0), (1, 0x20)]))).getV 0xF#4 = 0x21#8 ∧
    (after (start 0x80F4 (withV [(0, 0xFF), (0xF, 3)]))).getV 0 = 0#8 ∧
    (after (start 0x8FF4 (withV [(0xF, 0x80)]))).getV 0xF#4 = 2#8 := by decide

/-- T-ALU 22, 23 (W2). -/
theorem test_sub : let t := after (start 0x8015 (withV [(0, 3), (1, 5)]))
    let u := after (start 0x8015 (withV [(0, 7), (1, 7)]))
    t.getV 0 = 0xFE#8 ∧ t.getV 0xF#4 = 0#8 ∧ u.getV 0 = 0#8 ∧ u.getV 0xF#4 = 1#8 := by decide

/-- T-ALU 26, 28, 30: VF as an operand. -/
theorem test_sub_vf : (after (start 0x8F15 (withV [(0xF, 9), (1, 4)]))).getV 0xF#4 = 0xFD#8 ∧
    (after (start 0x80F5 (withV [(0, 9), (0xF, 4)]))).getV 0 = 8#8 ∧
    (after (start 0x8FF5 (withV [(0xF, 0x44)]))).getV 0xF#4 = 0#8 := by decide

/-- T-ALU 31, 32. -/
theorem test_subn : let t := after (start 0x8017 (withV [(0, 3), (1, 5)]))
    let u := after (start 0x8017 (withV [(0, 5), (1, 3)]))
    t.getV 0 = 2#8 ∧ t.getV 0xF#4 = 1#8 ∧ u.getV 0 = 0xFE#8 ∧ u.getV 0xF#4 = 0#8 := by decide

/-- T-ALU 36, 38, 39: VF as an operand. -/
theorem test_subn_vf : (after (start 0x8F17 (withV [(0xF, 2), (1, 9)]))).getV 0xF#4 = 8#8 ∧
    (after (start 0x80F7 (withV [(0, 2), (0xF, 9)]))).getV 0 = 0xFF#8 ∧
    (after (start 0x80F7 (withV [(0, 0x0A), (0xF, 9)]))).getV 0 = 0xF6#8 := by decide

/-- T-ALU 41 (W3), 46: V1 plays no part. -/
theorem test_shr : let t := after (start 0x8016 (withV [(0, 3), (1, 0xAA)]))
    t.getV 0 = 1#8 ∧ t.getV 1 = 0xAA#8 ∧ t.getV 0xF#4 = 1#8 ∧
      (after (start 0x8F06 (withV [(0xF, 0xFF)]))).getV 0xF#4 = 0#8 := by decide

/-- T-ALU 48 (W3), 53. -/
theorem test_shl : let t := after (start 0x801E (withV [(0, 0x80), (1, 0xAA)]))
    t.getV 0 = 0#8 ∧ t.getV 0xF#4 = 1#8 ∧
      (after (start 0x8F0E (withV [(0xF, 0xC1)]))).getV 0xF#4 = 2#8 := by decide

/-- T-ALU 55, 56 (W11): the supplied byte is used up also with the mask 0. -/
theorem test_rnd : let t := after (start 0xC30F (withV [(3, 0xFF)] (resetWith ⟨[0xA7], 0⟩)))
    let u := after (start 0xC300 (withV [(3, 0xFF)] (resetWith ⟨[0xFF], 0⟩)))
    t.getV 3 = 7#8 ∧ t.rng = ⟨[], 0⟩ ∧ u.getV 3 = 0#8 ∧ u.rng = ⟨[], 0⟩ := by decide

/-- T-ALU 56 with a free byte: 0 whatever the byte, and one draw is counted. -/
theorem test_rnd_free : (after (start 0xC300 (withV [(3, 0xFF)]))).getV 3 = 0#8 ∧
    (after (start 0xC300 (withV [(3, 0xFF)]))).rng = ⟨[], 1⟩ :=
  ⟨BitVec.and_zero, rfl⟩

/-! ## Control flow (T-CTL) -/

/-- T-CTL 1. -/
theorem test_jp : (after (start 0x1234)).pc = 0x0234#16 := by decide

/-- T-CTL 3, 4. -/
theorem test_jpV0 : (after (start 0xB300 (withV [(0, 4)]))).pc = 0x0304#16 ∧
    (after (start 0xBFFF (withV [(0, 3)]))).pc = 0x1002#16 := by decide

/-- T-CTL 5, 6 (W7). -/
theorem test_call : let t := after (start 0x2300)
    let u := after (start 0x2300 (withStack 15 0 0 (State.reset.goto 0x0FFE#16)))
    t.pc = 0x0300#16 ∧ t.sp = 1 ∧ t.stack[0] = 0x0202#16 ∧ u.sp = 16 ∧ u.stack[15] = 0x1000#16 := by decide

/-- T-CTL 7 (W8). -/
theorem test_call_overflow : let t := after (start 0x2300 (withStack 16 15 0x0ABC))
    t.status = .fault 2 0#16 ∧ t.fault = some .stackOverflow ∧ t.sp = 16 ∧ t.stack[15] = 0x0ABC#16 ∧
      t.pc = 0x0200#16 := by decide

/-- T-CTL 8, 9. -/
theorem test_ret : let t := after (start 0x00EE (withStack 1 0 0x0202))
    let u := after (start 0x00EE (withStack 16 15 0x0ABC))
    t.pc = 0x0202#16 ∧ t.sp = 0 ∧ t.stack[0] = 0x0202#16 ∧ u.pc = 0x0ABC#16 ∧ u.sp = 15 := by decide

/-- T-CTL 10. -/
theorem test_ret_underflow : let t := after (start 0x00EE)
    t.status = .fault 3 0#16 ∧ t.fault = some .stackUnderflow ∧ t.pc = 0x0200#16 := by decide

/-- T-CTL 11, 12, 21: taken, not taken, and wrapping at the top. -/
theorem test_seImm : (after (start 0x3100)).pc = 0x0204#16 ∧ (after (start 0x3100 (withV [(1, 1)]))).pc = 0x0202#16 ∧
    (after (start 0x3000 (State.reset.goto 0xFFFE#16))).pc = 0x0002#16 := by decide

/-- T-CTL 13, 14. -/
theorem test_sneImm : (after (start 0x4105 (withV [(1, 5)]))).pc = 0x0202#16 ∧
    (after (start 0x4106 (withV [(1, 5)]))).pc = 0x0204#16 := by decide

/-- T-CTL 15, 16. -/
theorem test_seReg : (after (start 0x5230 (withV [(2, 0x7F), (3, 0x7F)]))).pc = 0x0204#16 ∧
    (after (start 0x5230 (withV [(2, 0x7F), (3, 0x7E)]))).pc = 0x0202#16 := by decide

/-- T-CTL 18, 19. -/
theorem test_sneReg : (after (start 0x9230 (withV [(2, 1), (3, 2)]))).pc = 0x0204#16 ∧
    (after (start 0x9230 (withV [(2, 2), (3, 2)]))).pc = 0x0202#16 := by decide

/-- T-CTL 22, 23: PC goes past 0x0FFF and wraps at 65536. -/
theorem test_pc_advance : (after (start 0x6000 (State.reset.goto 0x0FFE#16))).pc = 0x1000#16 ∧
    (after (start 0x6000 (State.reset.goto 0xFFFE#16))).pc = 0#16 := by decide

/-! ## Decode faults (T-DEC) -/

/-- T-DEC 13: no tick, no tone. -/
theorem test_decode_fault : let t := after (start 0x0000 ((State.reset.setDT 3).setST 1))
    t.status = .fault 1 0x0000#16 ∧ t.fault = some (.decodeError 0x0000#16) ∧ t.dt = 3#8 ∧ t.st = 1#8 ∧
      t.tone = false ∧ t.pc = 0x0200#16 := by decide

/-- T-DEC, its heading: every later step reports the same fault. -/
theorem test_decode_fault_again : outcome (after (start 0xF075)) = .fault 1 0xF075#16 := by decide

/-! ## Memory block operations and I (T-MEM) -/

/-- T-MEM 1. -/
theorem test_storeRegs : let t := after (start 0xF255 (withV [(0, 0x11), (1, 0x22), (2, 0x33), (3, 0x44)] (State.reset.setI 0x300)))
    t.readByte 0x300 = 0x11#8 ∧ t.readByte 0x302 = 0x33#8 ∧ t.readByte 0x303 = 0#8 ∧ t.i = 0x0300#16 := by decide

/-- T-MEM 3: wraps into the font. -/
theorem test_storeRegs_wraps : let t := after (start 0xF355 (withV [(0, 1), (1, 2), (2, 3), (3, 4)] (State.reset.setI 0xFFE)))
    t.readByte 0xFFE = 1#8 ∧ t.readByte 0xFFF = 2#8 ∧ t.readByte 0 = 3#8 ∧ t.readByte 1 = 4#8 := by decide

/-- T-MEM 5: the first sixteen bytes of the font. -/
theorem test_loadRegs : let t := after (start 0xFF65)
    t.getV 0 = 0xF0#8 ∧ t.getV 1 = 0x90#8 ∧ t.getV 5 = 0x20#8 ∧ t.getV 0xD = 0x80#8 ∧ t.getV 0xF = 0xF0#8 := by decide

/-- T-MEM 6: wraps. -/
theorem test_loadRegs_wraps : let t := after (start 0xF165 (withM [(0xFFF, 0xAB)] (State.reset.setI 0xFFF)))
    t.getV 0 = 0xAB#8 ∧ t.getV 1 = 0xF0#8 ∧ t.getV 2 = 0#8 := by decide

/-- T-MEM 7 (W4), 10. -/
theorem test_ldBcd : let t := after (start 0xF033 (withV [(0, 234)] (State.reset.setI 0x300)))
    let u := after (start 0xF033 (withV [(0, 9)] (withM [(0x300, 7), (0x301, 7)] (State.reset.setI 0x300))))
    t.readByte 0x300 = 2#8 ∧ t.readByte 0x301 = 3#8 ∧ t.readByte 0x302 = 4#8 ∧
      u.readByte 0x300 = 0#8 ∧ u.readByte 0x301 = 0#8 ∧ u.readByte 0x302 = 9#8 := by decide

/-- T-MEM 15. -/
theorem test_addI : (after (start 0xF41E (withV [(4, 2)] (State.reset.setI 0xFFFF)))).i = 1#16 := by decide

/-- T-MEM 17, 20. -/
theorem test_ldFont : (after (start 0xF329 (withV [(3, 0x0F)]))).i = 0x004B#16 ∧
    (after (start 0xF329 (withV [(3, 0xFF)]))).i = 0x04FB#16 := by decide

/-- T-MEM 22. -/
theorem test_ldI : (after (start 0xAFFF (State.reset.setI 0xFFFF))).i = 0x0FFF#16 := by decide

/-! ## Display (T-DISP) -/

/-- T-DISP 3. -/
theorem test_drw : let t := after (start 0xD011 (withV [(0xF, 9)] (withM [(0x300, 0xF0)]
      { State.reset with i := 0x300#16, display := lit [(3, 0), (4, 0)] })))
    t.display = lit [(0, 0), (1, 0), (2, 0), (4, 0)] ∧ t.getV 0xF = 1#8 ∧ t.dispUpdated = true := by decide

/-- T-DISP 4: wraps on both axes. -/
theorem test_drw_wraps : let t := after (start 0xD012 (withV [(0, 60), (1, 31)] (withM [(0x300, 0x81), (0x301, 0xC3)]
      (State.reset.setI 0x300))))
    t.display = lit [(60, 31), (3, 31), (60, 0), (61, 0), (2, 0), (3, 0)] ∧ t.getV 0xF = 0#8 := by decide

/-- T-DISP 8, 6: VF as a coordinate, and a sprite of no rows. -/
theorem test_drw_vf : let t := after (start 0xDF01 (withV [(0xF, 5)] (withM [(0x300, 0x80)] (State.reset.setI 0x300))))
    let u := after (start 0xD010 (withV [(0xF, 1)] { State.reset with display := lit [(0, 0)] }))
    t.display = lit [(5, 0)] ∧ t.getV 0xF = 0#8 ∧ u.display = lit [(0, 0)] ∧ u.getV 0xF = 0#8 ∧
      u.dispUpdated = true := by decide

/-- T-DISP 10 (W5). -/
theorem test_cls : let t := after (start 0x00E0 (withV [(0xF, 1)] { State.reset with display := lit [(0, 0), (63, 31), (5, 7)] }))
    t.display = clearCells ∧ t.getV 0xF = 1#8 ∧ t.dispUpdated = true := by decide

/-- 10_state.md section 8: cell (cx, cy) is element cy*64 + cx of the output `display`. -/
theorem test_displayPort : let s := { State.reset with display := lit [(5, 7)] }
    s.displayPort 453 = true ∧ s.displayPort 452 = false := by decide

/-! ## Input (T-KEY) -/

/-- T-KEY 1, 2, 3. -/
theorem test_skp : (after (start 0xE59E (withV [(5, 0x0A)])) 0x0400#16).pc = 0x0204#16 ∧
    (after (start 0xE59E (withV [(5, 0x0A)])) 0xFBFF#16).pc = 0x0202#16 ∧
    (after (start 0xE59E (withV [(5, 0x1A)])) 0x0400#16).pc = 0x0204#16 := by decide

/-- T-KEY 4, 5. -/
theorem test_sknp : (after (start 0xE5A1 (withV [(5, 0x0A)])) 0x0400#16).pc = 0x0202#16 ∧
    (after (start 0xE5A1 (withV [(5, 0x0A)])) 0x0000#16).pc = 0x0204#16 := by decide

/-- T-KEY 7, 8. -/
theorem test_ldKey : let t := after (start 0xF30A (withV [(3, 0x77)])) 0x0090#16
    t.getV 3 = 4#8 ∧ t.pc = 0x0202#16 ∧ (after (start 0xF30A (withV [(3, 0x77)])) 0x8000#16).getV 3 = 0x0F#8 := by decide

/-- T-KEY 10. -/
theorem test_ldKey_awaits : let t := after (start 0xF30A (withV [(3, 0x77)] ((State.reset.setDT 5).setST 1)))
    t.status = .awaitKey ∧ t.getV 3 = 0x77#8 ∧ t.pc = 0x0200#16 ∧ t.dt = 5#8 ∧ t.st = 1#8 ∧ t.tone = false := by decide

/-! ## Timers (T-TMR) -/

/-- T-TMR 1, 2. -/
theorem test_ldFromDT : let t := after (start 0xF207 (State.reset.setDT 5))
    t.getV 2 = 5#8 ∧ t.dt = 4#8 ∧ (after (start 0xF207)).dt = 0#8 := by decide

/-- T-TMR 3, 4. -/
theorem test_ldDT : (after (start 0xF215 (withV [(2, 5)]))).dt = 4#8 ∧
    (after (start 0xF215 (State.reset.setDT 9))).dt = 0#8 := by decide

/-- T-TMR 6, 7 (W10). -/
theorem test_ldST : let t := after (start 0xF118 (withV [(1, 2)]))
    let u := after (start 0xF118 (withV [(1, 1)]))
    t.st = 1#8 ∧ t.tone = false ∧ u.st = 0#8 ∧ u.tone = true := by decide

/-- T-TMR 9, 10. -/
theorem test_tick : let t := after (start 0x6000 ((State.reset.setDT 1).setST 1))
    let u := after (start 0x6000 (State.reset.setST 2))
    t.dt = 0#8 ∧ t.st = 0#8 ∧ t.tone = true ∧ u.st = 1#8 ∧ u.tone = false := by decide

/-! ## Reset and the ROM load (T-LOAD) -/

/-- T-LOAD 1. -/
theorem test_reset : State.reset.pc = 0x0200#16 ∧
    [0x000, 0x001, 0x04B, 0x04C, 0x04F, 0x050, 0x1FF, 0x200].map State.reset.readByte =
      [0xF0#8, 0x90#8, 0xF0#8, 0x80#8, 0x80#8, 0#8, 0#8, 0#8] := by decide

/-- T-LOAD 2, 3. -/
theorem test_romLoad : let s := boot ⟨[], 0⟩ [0x12, 0x00]
    s.readByte 0x200 = 0x12#8 ∧ s.readByte 0x202 = 0#8 ∧ s.status = .done ∧ (after s).pc = 0x0200#16 ∧
      outcome (boot ⟨[], 0⟩ []) = .fault 1 0x0000#16 := by decide

/-- T-LOAD 5, 6 (W9). -/
theorem test_romLoad_too_large : let s := boot ⟨[], 0⟩ (List.replicate 3585 0xAA#8)
    s.status = .fault 4 0#16 ∧ s.fault = some .romTooLarge ∧ s.mem = [] ∧ outcome s = .fault 4 0#16 := by
  have e : boot ⟨[], 0⟩ (List.replicate 3585 0xAA#8) = (resetWith ⟨[], 0⟩).raise .romTooLarge := by
    rw [boot, romLoad, if_neg (by rw [rom_wf_replicate]; decide)]
  rw [e]
  decide

/-- Program P6, step 4: a word whose low byte the step before has stored is fetched as stored. -/
theorem test_self_modifying : let s := withM [(0x202, 0x61)] (withV [(0, 0x12)] (State.reset.setI 0x203))
    (after (after (start 0xF055 s))).getV 1 = 0x12#8 := by decide

/-- `step` takes the first supplied snapshot. -/
theorem test_step_takes_supplied_keys : let s := start 0xF30A { State.reset with keys := ⟨[0x0090#16], 0⟩ }
    ∃ t, step s = .next t ∧ t.getV 3#4 = 4#8 ∧ t.keys = ⟨[], 0⟩ := ⟨_, rfl, by decide, rfl⟩

/-- The host can place a word and run it as the first instruction after reset, whatever the free snapshot. -/
theorem test_withFetchWord : ∃ t, step (State.reset.withFetchWord 16 0x6FAB) = .next t ∧ t.getV 0xF#4 = 0xAB#8 ∧
    t.status = .done := ⟨_, rfl, rfl, rfl⟩

/-! ## Witnesses: states and operands that meet the hypotheses of the obligations -/

theorem test_witness_EncodeOfDecodeIsTheWord : decodeWord 0x8AB6#16 = .ok (.shr 0xA#4 0xB#4) := rfl

theorem test_witness_DecoderFollowsTheOpcodeMap : decodeWord 0xFF65#16 = .ok (.loadRegs 0xF#4) ∧
    Instr.cls ∈ oneOfEachRow ∧ Instr.cls.rowMatches 0x00E0#16 = true := by
  exact ⟨rfl, by decide, rfl⟩

theorem test_witness_StepRunsTheDecodedInstruction : let s := start 0x6FAB
    s.fault = none ∧ decodeBytes [s.readByte s.pc.toNat, s.readByte (s.pc.toNat + 1)] = .ok (.ldImm 0xF#4 0xAB#8, []) :=
  ⟨rfl, rfl⟩

theorem test_witness_UndecodableWordRaisesDecodeError : let s := start 0x0123
    s.fault = none ∧ decodeWord s.fetchWord = .error .reservedGroup0 := ⟨rfl, rfl⟩

theorem test_witness_HaltedCoreReportsItsFault : (State.reset.raise .romTooLarge).fault = some .romTooLarge := rfl

theorem test_witness_FaultStaysThroughAnyNumberOfSteps :
    (after (start 0x0123)).fault = some (.decodeError 0x0123#16) ∧ 0 < 1 := by decide

theorem test_witness_FaultsArePrecise : let s := start 0x2300 (withStack 16 15 0x0ABC)
    s.fault = none ∧ stepKeys 0#16 s = .next (after s) ∧ (after s).fault = some .stackOverflow := ⟨rfl, rfl, by decide⟩

theorem test_witness_OnlyCallAndRetTakeFaults : let s := withStack 16 15 0x0ABC
    (exec (.call 0x300#12) s = .next (s.raise .stackOverflow) ∧ (s.raise .stackOverflow).fault ≠ s.fault) ∧
      (exec .ret State.reset = .next (State.reset.raise .stackUnderflow) ∧
        (State.reset.raise .stackUnderflow).fault ≠ State.reset.fault) :=
  ⟨⟨rfl, by decide⟩, rfl, by decide⟩

/-- Both branches: an instruction that completes and one that awaits. -/
theorem test_witness_TimersTickOncePerCompletedInstruction : let s := start 0x6000 ((State.reset.setDT 1).setST 1)
    let r := start 0xF30A ((State.reset.setDT 5).setST 1)
    (RunsNext s (.ldImm 0#4 0#8) ∧ ∃ u, exec (.ldImm 0#4 0#8) (s.opened 0#16) = .next u ∧ u.status = .done) ∧
      (RunsNext r (.ldKey 3#4) ∧ ∃ u, exec (.ldKey 3#4) (r.opened 0#16) = .next u ∧ u.status ≠ .done) :=
  ⟨⟨⟨rfl, rfl⟩, _, rfl, rfl⟩, ⟨rfl, rfl⟩, _, rfl, by decide⟩

/-- A state with listed memory, both pulses and an instruction to run. -/
theorem test_witness_StepKeepsInv : let s := { start 0xF118 (withV [(1, 1)]) with tone := true, dispUpdated := true }
    Inv s ∧ ∃ t, step s = .next t := ⟨⟨rfl, .inl rfl, fun _ => ⟨rfl, rfl⟩, fun _ => rfl⟩, _, rfl⟩

theorem test_witness_HostMovesKeepInv : ∃ t, Inv State.reset ∧ hostMove (.boot ⟨[], 0⟩ [0x12#8, 0x00#8]) State.reset = .next t :=
  ⟨_, ⟨rfl, .inl rfl, fun h => absurd h (by decide), fun h => absurd h (by decide)⟩, rfl⟩

theorem test_witness_ResetLeavesTheResetTable : 0x050 ≤ 0x050 ∧ 0x050 ≤ 0xFFF ∧ 0x050 ≤ 0xFFF ∧ 0xFFF ≤ 0xFFF := by decide

/-- Both clauses at their boundary, and an address of each range. -/
theorem test_witness_RomLoadPlacesTheRom : (List.replicate 3584 0xAA#8).length ≤ 3584 ∧
    3584 < (List.replicate 3585 0xAA#8).length ∧ 3583 < (List.replicate 3584 0xAA#8).length ∧
    0x200 + (List.replicate 3583 0xAA#8).length ≤ 0xFFF ∧ 0x1FF < 0x200 := by
  simp only [List.length_replicate]
  decide

/-- The flag clause, with x not VF. -/
theorem test_witness_AddRegisterSetsCarryThenAdds : (0xE#4 : Reg) ≠ 0xF#4 := by decide

theorem test_witness_SubSetsNotBorrowThenSubtracts : (0xE#4 : Reg) ≠ 0xF#4 := by decide

theorem test_witness_SubnSetsNotBorrowThenSubtracts : (0x0#4 : Reg) ≠ 0xF#4 := by decide

theorem test_witness_RandomByteIsMaskedAndDrawnOnce : (resetWith ⟨[0xA7#8], 0⟩).rng = ⟨[0xA7#8], 0⟩ ∧
    State.reset.rng = ⟨[], 0⟩ := ⟨rfl, rfl⟩

/-- The push at depth 15, the fault at depth 16, and its step. -/
theorem test_witness_CallPushesTheReturnAddress : let s := start 0x2300 (withStack 16 15 0x0ABC)
    (withStack 15 0 0).sp.val < 16 ∧ s.sp.val = 16 ∧ RunsNext s (.call 0x300#12) := ⟨by decide, rfl, rfl, rfl⟩

/-- The pop at depths 1 and 16, the fault at depth 0. -/
theorem test_witness_ReturnPopsIntoPC : 0 < (withStack 1 0 0x0202).sp.val ∧ 0 < (withStack 16 15 0x0ABC).sp.val ∧
    State.reset.sp.val = 0 := by decide

theorem test_witness_CallThenReturnComesBack : (withStack 15 0 0).sp.val < 16 := by decide

theorem test_witness_SkipsCompareVxWithVy : (0x1#4 : Nibble) ≠ 0x0#4 ∧ (0xF#4 : Nibble) ≠ 0x0#4 := by decide

/-- The last register stored, and the first byte past it, with addresses that wrap. -/
theorem test_witness_StoreWritesV0ToVxAtI : let s := State.reset.setI 0xFFE#16
    (0x3#4 : Reg).toNat ≤ (0x3#4 : Reg).toNat ∧
      ∀ r : Reg, r.toNat ≤ (0x3#4 : Reg).toNat → 0x002 % 4096 ≠ s.dataAddr r.toNat % 4096 := by decide

theorem test_witness_BcdStoresTheThreeDigits : let s := State.reset.setI 0xFFF#16
    ∀ k < 3, 0x002 % 4096 ≠ s.dataAddr k % 4096 := by decide

/-- Program P6: the low byte of the next word is the one stored; and a state where it is the high byte. -/
theorem test_witness_StoreIsSeenByTheNextFetch : let s := State.reset.setI 0x203#16
    let r := State.reset.setI 0x202#16
    (∃ t, (0x0#4 : Reg).toNat ≤ (0x0#4 : Reg).toNat ∧ exec (.storeRegs 0#4) s = .next t ∧
      (t.pc.toNat + 1) % 4096 = s.dataAddr (0x0#4 : Reg).toNat % 4096) ∧
      (∃ t, exec (.storeRegs 0#4) r = .next t ∧ t.pc.toNat % 4096 = r.dataAddr (0x0#4 : Reg).toNat % 4096) :=
  ⟨⟨_, by decide, rfl, rfl⟩, _, rfl, rfl⟩

/-- The same statement's clause on `LD B, Vx`: its first digit as the low byte, its last as the high one. -/
theorem test_witness_StoreIsSeenByTheNextFetch_digits : let s := State.reset.setI 0x203#16
    let r := State.reset.setI 0x200#16
    (∃ t, 0 < 3 ∧ exec (.ldBcd 0#4) s = .next t ∧ (t.pc.toNat + 1) % 4096 = s.dataAddr 0 % 4096) ∧
      (∃ t, 2 < 3 ∧ exec (.ldBcd 0#4) r = .next t ∧ t.pc.toNat % 4096 = r.dataAddr 2 % 4096) :=
  ⟨⟨_, by decide, rfl, rfl⟩, _, by decide, rfl, rfl⟩

theorem test_witness_StoreThenLoadRestoresTheRegisters :
    ∃ u, exec (.storeRegs 0xF#4) (State.reset.setI 0xFF8#16) = .next u := ⟨_, rfl⟩

/-- The last sprite bit of two rows at the corner, a cell off the sprite, a collision and none. -/
theorem test_witness_DrawXorsTheSpriteAndReportsCollision :
    let s := withV [(0, 60), (1, 31)] (withM [(0x300, 0x81), (0x301, 0xC3)]
      { State.reset with i := 0x300#16, display := lit [(3, 0)] })
    let at_ : Nat → Nat → Fin 64 → Fin 32 → Prop := fun row col cx cy =>
      row < (2#4 : Nibble).toNat ∧ col < 8 ∧ cx.val = ((s.getV 0#4).toNat + col) % 64 ∧
        cy.val = ((s.getV 1#4).toNat + row) % 32
    at_ 1 7 3 0 ∧ (s.readByte (s.dataAddr 1)).getLsbD (7 - 7) = true ∧ cellAt s.display 3 0 = true ∧
      (∀ row col, ¬ at_ row col 4 0) ∧ (∀ row col, ¬ at_ row col 3 1) ∧
      (∀ row col cx cy, at_ row col cx cy →
        ¬ ((s.readByte (s.dataAddr row)).getLsbD (7 - col) = true ∧ cellAt clearCells cx cy = true)) := by
  intro s at_
  refine ⟨⟨by decide, by decide, by decide, by decide⟩, by decide, by decide, fun row col h => ?_, fun row col h => ?_,
    fun row col cx cy _ h => ?_⟩
  · have h3 : 4 = (60 + col) % 64 := h.2.2.1
    have := h.2.1
    omega
  · have h1 : row < 2 := h.1
    have h4 : 1 = (31 + row) % 32 := h.2.2.2
    omega
  · have h2 := h.2
    simp [cellAt, clearCells] at h2

theorem test_witness_DrawTwiceRestoresTheDisplay : (0xE#4 : Reg) ≠ 0xF#4 ∧
    ∃ u, exec (.drw 0xE#4 0xE#4 0xF#4) State.reset = .next u := ⟨by decide, _, rfl⟩

/-- A step of another instruction, and two runs of a draw that differ in the display. -/
theorem test_witness_OnlyDrawAndClearWriteTheDisplay : let s := start 0x6FAB
    (∃ t, stepKeys 0#16 s = .next t ∧ ¬ RunsNext s .cls ∧ ∀ x y n, ¬ RunsNext s (.drw x y n)) ∧
      (∃ t t', exec (.drw 0#4 0#4 1#4) s = .next t ∧ exec (.drw 0#4 0#4 1#4) { s with display := lit [(0, 0)] } = .next t') ∧
      (∀ x y n, Instr.cls ≠ .drw x y n) := by
  have h : ∀ i, decodeWord (start 0x6FAB).fetchWord = .ok i → i = .ldImm 0xF#4 0xAB#8 := by
    intro i hi
    have e : decodeWord (start 0x6FAB).fetchWord = .ok (.ldImm 0xF#4 0xAB#8) := rfl
    rw [e] at hi
    exact (Except.ok.inj hi).symm
  exact ⟨⟨_, rfl, fun hr => Instr.noConfusion (h _ hr.2), fun x y n hr => Instr.noConfusion (h _ hr.2)⟩,
    ⟨_, _, rfl, rfl⟩, fun x y n hr => Instr.noConfusion hr⟩

/-- The highest key alone, and the lowest with others. -/
theorem test_witness_KeyWaitCompletesWithTheLeastKey : let s := State.reset.latchKeys 0x8000#16
    let r := State.reset.latchKeys 0x0091#16
    (15 < 16 ∧ s.k.getLsbD 15 = true ∧ ∀ l < 15, s.k.getLsbD l = false) ∧
      (0 < 16 ∧ r.k.getLsbD 0 = true ∧ ∀ l < 0, r.k.getLsbD l = false) := by decide

theorem test_witness_KeyWaitChangesNothingWithNoKeyDown : (∀ j < 16, State.reset.k.getLsbD j = false) ∧
    RunsNext (start 0xF30A) (.ldKey 3#4) := ⟨by decide, rfl, rfl⟩

theorem test_witness_OldKeypadLatchIsNeverObserved : (start 0xF30A).fault = none := rfl

theorem test_witness_LdFromDelayTimerReadsBeforeTheTick : RunsNext (start 0xF207 (State.reset.setDT 5)) (.ldFromDT 2#4) :=
  ⟨rfl, rfl⟩

theorem test_witness_LdDelayTimerIsTickedInItsOwnStep : RunsNext (start 0xF215 (withV [(2, 5)])) (.ldDT 2#4) := ⟨rfl, rfl⟩

theorem test_witness_LdSoundTimerFiresToneAtOne : RunsNext (start 0xF118 (withV [(1, 1)])) (.ldST 1#4) := ⟨rfl, rfl⟩

theorem test_witness_SoundTimerIsNotObservable : let s := start 0xF118 (withV [(1, 1)])
    SameButSound s (s.setST 7#8) ∧ s.st ≠ (s.setST 7#8).st ∧ ∃ t, stepKeys 0#16 s = .next t := ⟨rfl, by decide, _, rfl⟩

/-- An instruction with a flag and a register it does not write; the first byte past a transfer that wraps, and past the
digits; a slot beside the one pushed; an instruction that does not complete. -/
theorem test_witness_InstructionsWriteOnlyTheirWriteSet : let s := State.reset.setI 0xFFE#16
    (∃ t, exec (.addReg 0#4 1#4) s = .next t) ∧ (Instr.addReg 0#4 1#4).writesReg 2#4 = false ∧
      (Instr.loadRegs 3#4).writesReg 4#4 = false ∧
      (∃ t, exec (.storeRegs 3#4) s = .next t ∧ ¬ (Instr.storeRegs 3#4).writesByte s 0x002) ∧
      (∃ t, exec (.ldBcd 0#4) s = .next t ∧ ¬ (Instr.ldBcd 0#4).writesByte s 0x001) ∧
      (∃ t, exec (.call 0x300#12) s = .next t ∧ ¬ (Instr.call 0x300#12).writesSlot s 1) ∧
      (∃ t, exec (.ldKey 0#4) s = .next t ∧ t.status ≠ .done) := by
  refine ⟨⟨_, rfl⟩, rfl, rfl, ⟨_, rfl, ?_⟩, ⟨_, rfl, ?_⟩, ⟨_, rfl, ?_⟩, _, rfl, by decide⟩
  · rintro ⟨k, hk, h⟩
    have h' : 2 = (4094 + k) % 4096 := h
    have hk' : k ≤ 3 := hk
    omega
  · rintro ⟨k, hk, h⟩
    have h' : 1 = (4094 + k) % 4096 := h
    omega
  · exact fun h => absurd (show (1 : Nat) = 0 from h) (by decide)

/-- The absolute targets at their boundary depths, and a key down. -/
theorem test_witness_EveryInstructionAdvancesPCAsItsClassSays_targets :
    (∃ t, exec (.jp 0xFFF#12) State.reset = .next t) ∧ (∃ t, exec (.jpV0 0xFFF#12) (withV [(0, 3)]) = .next t) ∧
      (∃ t, exec (.call 0x300#12) (withStack 15 0 0) = .next t ∧ (withStack 15 0 0).sp.val < 16) ∧
      (∃ t, exec .ret (withStack 1 0 0x0202) = .next t ∧ 0 < (withStack 1 0 0x0202).sp.val) ∧
      (∃ t, exec (.ldKey 3#4) (State.reset.latchKeys 0x8000#16) = .next t ∧ (State.reset.latchKeys 0x8000#16).k ≠ 0#16) :=
  ⟨⟨_, rfl⟩, ⟨_, rfl⟩, ⟨_, rfl, by decide⟩, ⟨_, rfl, by decide⟩, _, rfl, by decide⟩

/-- One of each class, and an instruction that does not complete. -/
theorem test_witness_EveryInstructionAdvancesPCAsItsClassSays :
    (∃ t, exec .cls State.reset = .next t ∧ Instr.cls.isSequential = true) ∧
      (∃ t, exec (.skp 0#4) State.reset = .next t ∧ (Instr.skp 0#4).isSkip = true) ∧
      (∃ t, exec (.ldKey 0#4) State.reset = .next t ∧ t.status ≠ .done) :=
  ⟨⟨_, rfl, rfl⟩, ⟨_, rfl, rfl⟩, _, rfl, by decide⟩

/-- At depth 1, two states that differ in slot 1. -/
theorem test_witness_StaleStackSlotsAreNotObservable : let s := start 0x00EE (withStack 1 0 0x0202)
    let t := { s with stack := s.stack.set 1 0xBEEF#16 }
    SameButStaleSlots s t ∧ s.stack ≠ t.stack ∧ ∃ u, stepKeys 0#16 s = .next u :=
  ⟨⟨rfl, by decide⟩, by decide, _, rfl⟩

end Sys2Proof.Tests
end

section
/-! Proofs for spec/41_alu.md: what the word of an instruction decodes to, frames composed update by update, and the
instructions that write one register and no flag. -/

namespace Sys2Proof.Machine

/-! ## The fields of an encoded word (R5, R61) -/

section Fields

variable (op : BitVec 4) (x y : Reg) (n : Nibble) (kk : Byte) (nnn : Addr12)

@[simp] theorem fieldOp_formXKK : fieldOp (formXKK op x kk) = op := by
  ext j hj
  interval_cases j <;> simp [fieldOp, formXKK]

@[simp] theorem fieldX_formXKK : fieldX (formXKK op x kk) = x := by
  ext j hj
  interval_cases j <;> simp [fieldX, formXKK]

@[simp] theorem fieldKK_formXKK : fieldKK (formXKK op x kk) = kk := by
  ext j hj
  interval_cases j <;> simp [fieldKK, formXKK]

@[simp] theorem fieldOp_formXYN : fieldOp (formXYN op x y n) = op := by
  ext j hj
  interval_cases j <;> simp [fieldOp, formXYN]

@[simp] theorem fieldX_formXYN : fieldX (formXYN op x y n) = x := by
  ext j hj
  interval_cases j <;> simp [fieldX, formXYN]

@[simp] theorem fieldY_formXYN : fieldY (formXYN op x y n) = y := by
  ext j hj
  interval_cases j <;> simp [fieldY, formXYN]

@[simp] theorem fieldN_formXYN : fieldN (formXYN op x y n) = n := by
  ext j hj
  interval_cases j <;> simp [fieldN, formXYN]

@[simp] theorem fieldOp_formNNN : fieldOp (formNNN op nnn) = op := by
  ext j hj
  interval_cases j <;> simp [fieldOp, formNNN]

@[simp] theorem fieldNNN_formNNN : fieldNNN (formNNN op nnn) = nnn := by
  ext j hj
  interval_cases j <;> simp [fieldNNN, formNNN]

/-- The value of a word from its fields in format XKK (R5). -/
theorem toNat_eq_fields_XKK (w : Word) :
    w.toNat = 4096 * (fieldOp w).toNat + 256 * (fieldX w).toNat + (fieldKK w).toNat := by
  have := w.isLt
  simp only [fieldOp, fieldX, fieldKK, BitVec.extractLsb'_toNat, Nat.shiftRight_eq_div_pow]
  omega

/-- The value of a word from its fields in format XYN (R5). -/
theorem toNat_eq_fields_XYN (w : Word) :
    w.toNat = 4096 * (fieldOp w).toNat + 256 * (fieldX w).toNat + 16 * (fieldY w).toNat + (fieldN w).toNat := by
  have := w.isLt
  simp only [fieldOp, fieldX, fieldY, fieldN, BitVec.extractLsb'_toNat, Nat.shiftRight_eq_div_pow]
  omega

/-- The value of a word from its fields in format NNN (R5). -/
theorem toNat_eq_fields_NNN (w : Word) : w.toNat = 4096 * (fieldOp w).toNat + (fieldNNN w).toNat := by
  have := w.isLt
  simp only [fieldOp, fieldNNN, BitVec.extractLsb'_toNat, Nat.shiftRight_eq_div_pow]
  omega

theorem formXKK_toNat : (formXKK op x kk).toNat = 4096 * op.toNat + 256 * x.toNat + kk.toNat := by
  simpa only [fieldOp_formXKK, fieldX_formXKK, fieldKK_formXKK] using toNat_eq_fields_XKK (formXKK op x kk)

/-- The fixed bits of the pattern, `op` and `n`, come first in the sum, as in the words of the obligations. -/
theorem formXYN_toNat : (formXYN op x y n).toNat = 4096 * op.toNat + n.toNat + 256 * x.toNat + 16 * y.toNat := by
  have h := toNat_eq_fields_XYN (formXYN op x y n)
  simp only [fieldOp_formXYN, fieldX_formXYN, fieldY_formXYN, fieldN_formXYN] at h
  omega

theorem formNNN_toNat : (formNNN op nnn).toNat = 4096 * op.toNat + nnn.toNat := by
  simpa only [fieldOp_formNNN, fieldNNN_formNNN] using toNat_eq_fields_NNN (formNNN op nnn)

end Fields

/-- The decoder reads back every word the encoder writes (R63 to R67). -/
theorem decodeWord_encode (i : Instr) : decodeWord (encode i) = .ok i := by
  cases i
  case cls | ret => rfl
  case jp | call | ldI | jpV0 | seImm | sneImm | ldImm | addImm | rnd | drw => simp [encode, decodeWord]
  case seReg => simp [encode, decodeWord, decodeGroup5]
  case sneReg => simp [encode, decodeWord, decodeGroup9]
  case ldReg | or | and | xor | addReg | sub | shr | subn | shl => simp [encode, decodeWord, decodeGroup8]
  case skp | sknp => simp [encode, decodeWord, decodeGroupE]
  all_goals simp [encode, decodeWord, decodeGroupF]

/-- The word of value `n` is the instruction `i` when the encoder writes `n` for `i`. -/
theorem encodedAs_of_encode_toNat {n : Nat} {i : Instr} (h : (encode i).toNat = n) : EncodedAs n i := by
  rw [EncodedAs, ← h, BitVec.ofNat_toNat, BitVec.setWidth_eq]
  exact decodeWord_encode i

/-! ## Frames -/

theorem Part.same.trans {p : Part} {s t u : State} (h : p.same s t) (h' : p.same t u) : p.same s u := by
  cases p
  case v | mem => exact fun a => (h' a).trans (h a)
  case stack => exact fun j => (h' j).trans (h j)
  case display => exact fun cx cy => (h' cx cy).trans (h cx cy)
  all_goals exact Eq.trans h' h

/-- Two updates in a row change at most what either changes. -/
theorem Frame.trans {ps qs : List Part} {s t u : State} (h : Frame ps s t) (h' : Frame qs t u) :
    Frame (ps ++ qs) s u := fun p hp =>
  (h p fun hm => hp (List.mem_append_left qs hm)).trans (h' p fun hm => hp (List.mem_append_right ps hm))

theorem frame_setV (s : State) (r : Reg) (b : Byte) : Frame [.v] s (s.setV r b) := by
  intro p hp
  cases p
  case v => exact absurd (List.mem_singleton_self _) hp
  all_goals simp [Part.same]

theorem frame_goto (s : State) (a : Word) : Frame [.pc, .status] s (s.goto a) := by
  intro p hp
  cases p
  case pc | status => simp at hp
  all_goals simp [Part.same]

/-- One register written and the default end (R85): no other register changes (VF too, unless it is Vx), the instruction
completes, and nothing but the registers, PC and `status` changes. -/
theorem setV_advance_frame (s : State) (x : Reg) (b : Byte) :
    RegFrame [x] s (s.setV x b).advance ∧ DoneAt (s.pc + 2#16) (s.setV x b).advance ∧
      Frame [.v, .pc, .status] s (s.setV x b).advance := by
  refine ⟨fun r hr => ?_, ⟨rfl, rfl⟩, (frame_setV s x b).trans (frame_goto _ _)⟩
  rw [State.advance_getV, State.getV_setV, if_neg (List.ne_of_not_mem_cons hr)]

/-- The register just written, after the default end. -/
theorem getV_setV_advance (s : State) (x : Reg) (b : Byte) : (s.setV x b).advance.getV x = b := by
  rw [State.advance_getV, State.getV_setV, if_pos rfl]

/-! ## The obligations of the family -/

/-- Settles O20: the register read back is the immediate written. -/
theorem ldImmediateWritesVx : Obligations.LdImmediateWritesVx := fun x kk s =>
  ⟨encodedAs_of_encode_toNat (formXKK_toNat 0x6#4 x kk), _, rfl, getV_setV_advance s x kk, setV_advance_frame s x kk⟩

/-- Settles O21: addition of bytes is addition of their values modulo 256. -/
theorem addImmediateWrapsWithoutFlag : Obligations.AddImmediateWrapsWithoutFlag := by
  intro x kk s
  refine ⟨encodedAs_of_encode_toNat (formXKK_toNat 0x7#4 x kk), _, rfl, ?_, setV_advance_frame s x (s.getV x + kk)⟩
  rw [getV_setV_advance, BitVec.toNat_add]

/-- Settles O22: the value copied is Vy's before the instruction, also when `x` = `y`. -/
theorem ldRegisterCopiesVy : Obligations.LdRegisterCopiesVy := fun x y s =>
  ⟨encodedAs_of_encode_toNat (formXYN_toNat 0x8#4 x y 0x0#4), _, rfl, getV_setV_advance s x (s.getV y),
    setV_advance_frame s x (s.getV y)⟩

/-- Settles O23, bit by bit for each of the three operations. -/
theorem bitwiseOperationsWriteNoFlag : Obligations.BitwiseOperationsWriteNoFlag := by
  intro x y s
  refine ⟨⟨encodedAs_of_encode_toNat (formXYN_toNat 0x8#4 x y 0x1#4), _, rfl, fun j _ => ?_, setV_advance_frame s x _⟩,
    ⟨encodedAs_of_encode_toNat (formXYN_toNat 0x8#4 x y 0x2#4), _, rfl, fun j _ => ?_, setV_advance_frame s x _⟩,
    ⟨encodedAs_of_encode_toNat (formXYN_toNat 0x8#4 x y 0x3#4), _, rfl, fun j _ => ?_, setV_advance_frame s x _⟩⟩
  · rw [getV_setV_advance, BitVec.getLsbD_or]
  · rw [getV_setV_advance, BitVec.getLsbD_and]
  · rw [getV_setV_advance, BitVec.getLsbD_xor]

end Sys2Proof.Machine
end

section
/-! Proofs for spec/42_control_flow.md: the absolute jump, the call and its overflow, and the conditional skips on a byte. -/

namespace Sys2Proof.Machine

/-! ## Jumps -/

@[simp] theorem zextAddr_toNat (nnn : Addr12) : (zextAddr nnn).toNat = nnn.toNat :=
  BitVec.toNat_setWidth_of_le (by decide)

/-- Settles O30: the address is zero-extended into PC, so no bit of it is lost. -/
theorem jumpWritesTheAddress : Obligations.JumpWritesTheAddress := fun nnn s =>
  ⟨encodedAs_of_encode_toNat (formNNN_toNat 0x1#4 nnn), _, rfl, zextAddr_toNat nnn, rfl, frame_goto s _⟩

/-! ## The call -/

theorem frame_push (s : State) (a : Word) (h : s.sp.val < 16) : Frame [.stack, .sp] s (s.push a h) := by
  intro p hp
  cases p
  case stack | sp => simp at hp
  all_goals simp [Part.same]

theorem frame_raise (s : State) (f : Fault) : Frame [.fault, .status] s (s.raise f) := by
  intro p hp
  cases p
  case fault | status => simp at hp
  all_goals simp [Part.same]

theorem faulted_raise (s : State) (f : Fault) : Faulted f s (s.raise f) := ⟨rfl, rfl, frame_raise s f⟩

/-- `CALL` with room on the stack (R112). -/
theorem exec_call_of_lt (nnn : Addr12) {s : State} (h : s.sp.val < 16) :
    exec (.call nnn) s = .next ((s.push (s.pc + 2#16) h).goto (zextAddr nnn)) := dif_pos h

/-- `CALL` at depth 16 takes StackOverflow (R112, R162). -/
theorem exec_call_of_full (nnn : Addr12) {s : State} (h : s.sp.val = 16) :
    exec (.call nnn) s = .next (s.raise .stackOverflow) := dif_neg (by omega)

/-- A step that runs `CALL` at depth 16 ends with the fault: it did not complete, so nothing ticks (R172). -/
theorem stepKeys_call_of_full (keys : Keys) (nnn : Addr12) {s : State} (h : s.sp.val = 16)
    (hr : RunsNext s (.call nnn)) : stepKeys keys s = .next ((s.opened keys).raise .stackOverflow) := by
  obtain ⟨hf, hd⟩ := hr
  rw [stepKeys_runs hf hd (exec_call_of_full nnn (s := s.opened keys) h), State.finish_not_done (by simp)]

/-- Settles O32: the push and the jump below depth 16, the fault at it, and the step that takes the fault. -/
theorem callPushesTheReturnAddress : Obligations.CallPushesTheReturnAddress := by
  intro nnn s
  refine ⟨encodedAs_of_encode_toNat (formNNN_toNat 0x2#4 nnn), fun h => ?_, fun h => ?_, fun keys h hr => ?_⟩
  · refine ⟨_, exec_call_of_lt nnn h, ?_, fun j hj => ?_, rfl, zextAddr_toNat nnn, rfl,
      (frame_push s _ h).trans (frame_goto _ _)⟩
    · exact Vector.getElem_set_self h
    · rw [State.goto_stack, State.stack_push, if_neg hj]
  · exact ⟨_, exec_call_of_full nnn h, faulted_raise s .stackOverflow⟩
  · exact ⟨_, stepKeys_call_of_full keys nnn h hr, rfl, rfl, rfl⟩

/-! ## The conditional skips -/

/-- A skip on equal bytes ends 4 further on when their values agree, else 2 (R85), and changes nothing else. -/
theorem skipIf_beq_frame (s : State) (a b : Byte) :
    DoneAt (if a.toNat = b.toNat then s.pc + 4#16 else s.pc + 2#16) (s.skipIf (a == b)) ∧
      Frame [.pc, .status] s (s.skipIf (a == b)) := by
  refine ⟨⟨?_, rfl⟩, frame_goto s _⟩
  simp only [State.skipIf_pc, beq_iff_eq, BitVec.toNat_inj]

/-- A skip on different bytes ends 2 further on when their values agree, else 4 (R85), and changes nothing else. -/
theorem skipIf_bne_frame (s : State) (a b : Byte) :
    DoneAt (if a.toNat = b.toNat then s.pc + 2#16 else s.pc + 4#16) (s.skipIf (a != b)) ∧
      Frame [.pc, .status] s (s.skipIf (a != b)) := by
  refine ⟨⟨?_, rfl⟩, frame_goto s _⟩
  simp only [State.skipIf_pc, bne_iff_ne, ne_eq, ite_not, BitVec.toNat_inj]

/-- Settles O35: equality of bytes is equality of their values. -/
theorem skipsCompareVxWithImmediate : Obligations.SkipsCompareVxWithImmediate := fun x kk s =>
  ⟨⟨encodedAs_of_encode_toNat (formXKK_toNat 0x3#4 x kk), _, rfl, skipIf_beq_frame s (s.getV x) kk⟩,
    encodedAs_of_encode_toNat (formXKK_toNat 0x4#4 x kk), _, rfl, skipIf_bne_frame s (s.getV x) kk⟩

/-- The word of format XYN from the value of its fields, highest first (R61). -/
theorem ofNat_eq_formXYN (op : BitVec 4) (x y : Reg) (n : Nibble) :
    BitVec.ofNat 16 (4096 * op.toNat + 256 * x.toNat + 16 * y.toNat + n.toNat) = formXYN op x y n := by
  have h : 4096 * op.toNat + 256 * x.toNat + 16 * y.toNat + n.toNat = (formXYN op x y n).toNat := by
    rw [formXYN_toNat]; omega
  rw [h, BitVec.ofNat_toNat, BitVec.setWidth_eq]

/-- Words 5xyN with N not 0 are reserved (R66). -/
theorem decodeWord_group5_reserved (x y : Reg) {n : Nibble} (hn : n ≠ 0x0#4) :
    decodeWord (formXYN 0x5#4 x y n) = .error .reservedGroup5 := by
  simp [decodeWord, decodeGroup5, hn]

/-- Words 9xyN with N not 0 are reserved (R66). -/
theorem decodeWord_group9_reserved (x y : Reg) {n : Nibble} (hn : n ≠ 0x0#4) :
    decodeWord (formXYN 0x9#4 x y n) = .error .reservedGroup9 := by
  simp [decodeWord, decodeGroup9, hn]

/-- Settles O36: the comparison as for an immediate; the reserved words by their group's check of the low nibble. -/
theorem skipsCompareVxWithVy : Obligations.SkipsCompareVxWithVy := fun x y s =>
  ⟨⟨encodedAs_of_encode_toNat (formXYN_toNat 0x5#4 x y 0x0#4), _, rfl, skipIf_beq_frame s (s.getV x) (s.getV y)⟩,
    ⟨encodedAs_of_encode_toNat (formXYN_toNat 0x9#4 x y 0x0#4), _, rfl, skipIf_bne_frame s (s.getV x) (s.getV y)⟩,
    fun _ hn => ⟨(congrArg decodeWord (ofNat_eq_formXYN 0x5#4 x y _)).trans (decodeWord_group5_reserved x y hn),
      (congrArg decodeWord (ofNat_eq_formXYN 0x9#4 x y _)).trans (decodeWord_group9_reserved x y hn)⟩⟩

end Sys2Proof.Machine
end

section
/-! Proofs for spec/43_memory_block.md: frames of the instructions that end `PC <- PC + 2`, the block transfers, the three
decimal digits, and the load of the index register. -/

namespace Sys2Proof.Machine

/-! ## Frames -/

theorem frame_setI (s : State) (a : Word) : Frame [.i] s (s.setI a) := by
  intro p hp
  cases p
  case i => exact absurd (List.mem_singleton_self _) hp
  all_goals simp [Part.same]

/-- Only the list of memory bytes replaced. -/
theorem frame_with_mem (s : State) (m : List Host.Cell) : Frame [.mem] s { s with mem := m } := by
  intro p hp
  cases p
  case mem => exact absurd (List.mem_singleton_self _) hp
  case v | stack => exact fun _ => rfl
  case display => exact fun _ _ => rfl
  all_goals rfl

/-- Only the general registers replaced. -/
theorem frame_with_v (s : State) (v : Vector Byte 16) : Frame [.v] s { s with v := v } := by
  intro p hp
  cases p
  case v => exact absurd (List.mem_singleton_self _) hp
  case mem | stack => exact fun _ => rfl
  case display => exact fun _ _ => rfl
  all_goals rfl

theorem frame_storeAll (rs : List Reg) (s : State) : Frame [.mem] s (storeAll rs s) := by
  rw [storeAll_eq]
  exact frame_with_mem s _

theorem frame_loadAll (rs : List Reg) (s : State) : Frame [.v] s (loadAll rs s) := by
  rw [loadAll_eq]
  exact frame_with_v s _

theorem frame_storeDigits (v : Byte) (s : State) : Frame [.mem] s (storeDigits v s) := frame_with_mem s _

/-- The default end (R85) after updates that leave PC alone: the instruction completes 2 further on, and beyond those updates
changes only PC and `status`. -/
theorem advance_frame {ps : List Part} {s t : State} (h : Frame ps s t) (hpc : Part.pc ∉ ps) :
    DoneAt (s.pc + 2#16) t.advance ∧ Frame (ps ++ [.pc, .status]) s t.advance := by
  have hp : t.pc = s.pc := h .pc hpc
  refine ⟨⟨?_, rfl⟩, h.trans (frame_goto t _)⟩
  rw [State.advance_pc, hp]

/-! ## The words of group F -/

/-- The word of format XKK with its fixed bits, `op` and `kk`, first in the sum. -/
theorem formXKK_toNat_fixed_first (op : BitVec 4) (x : Reg) (kk : Byte) :
    (formXKK op x kk).toNat = 4096 * op.toNat + kk.toNat + 256 * x.toNat :=
  (formXKK_toNat op x kk).trans (Nat.add_right_comm ..)

/-! ## The three digits -/

@[simp] theorem hundreds_toNat (v : Byte) : (hundreds v).toNat = v.toNat / 100 := by
  have := v.isLt
  exact Nat.mod_eq_of_lt (by omega)

@[simp] theorem tens_toNat (v : Byte) : (tens v).toNat = v.toNat / 10 % 10 :=
  Nat.mod_eq_of_lt (by omega)

@[simp] theorem ones_toNat (v : Byte) : (ones v).toNat = v.toNat % 10 :=
  Nat.mod_eq_of_lt (by omega)

/-- Addresses from I up meet at one byte only when they are one, over less than the whole memory (R126). -/
theorem ea_dataAddr_eq_iff (s : State) {j k : Nat} (hj : j < 4096) (hk : k < 4096) :
    ea (s.dataAddr j) = ea (s.dataAddr k) ↔ j = k := by
  simp only [ea, State.dataAddr, Config.memSize]
  omega

theorem readByte_storeDigits_zero (v : Byte) (s : State) :
    (storeDigits v s).readByte (s.dataAddr 0) = hundreds v := by
  simp [readByte_storeDigits, ea_dataAddr_eq_iff]

theorem readByte_storeDigits_one (v : Byte) (s : State) : (storeDigits v s).readByte (s.dataAddr 1) = tens v := by
  simp [readByte_storeDigits, ea_dataAddr_eq_iff]

theorem readByte_storeDigits_two (v : Byte) (s : State) : (storeDigits v s).readByte (s.dataAddr 2) = ones v := by
  simp [readByte_storeDigits]

theorem readByte_storeDigits_of_ne (v : Byte) (s : State) {a : Nat} (h : ∀ k < 3, ea a ≠ ea (s.dataAddr k)) :
    (storeDigits v s).readByte a = s.readByte a := by
  rw [readByte_storeDigits, if_neg (h 2 (by decide)), if_neg (h 1 (by decide)), if_neg (h 0 (by decide))]

/-! ## The obligations of the family -/

/-- Settles O37: each register's byte after all the stores, and the bytes at no register's address. -/
theorem storeWritesV0ToVxAtI : Obligations.StoreWritesV0ToVxAtI := fun x s =>
  ⟨encodedAs_of_encode_toNat (formXKK_toNat_fixed_first 0xF#4 x 0x55#8), _, rfl,
    fun r hr => readByte_storeAll_of_mem s ((mem_regsUpTo x r).mpr hr),
    fun a ha => readByte_storeAll_of_ne (regsUpTo x) s a fun r hr => ha r ((mem_regsUpTo x r).mp hr),
    advance_frame (frame_storeAll _ s) (by decide)⟩

/-- Settles O38: the loads write the registers of the transfer, each from its own address, and only those. -/
theorem loadReadsV0ToVxFromI : Obligations.LoadReadsV0ToVxFromI := by
  intro x s
  refine ⟨encodedAs_of_encode_toNat (formXKK_toNat_fixed_first 0xF#4 x 0x65#8), _, rfl, fun r => ?_,
    advance_frame (frame_loadAll _ s) (by decide)⟩
  simp only [State.advance_getV, getV_loadAll, mem_regsUpTo]

/-- Settles O39: no digit's address is another's, so each digit is read back, and a byte at none of the three is kept. -/
theorem bcdStoresTheThreeDigits : Obligations.BcdStoresTheThreeDigits := by
  intro x s
  refine ⟨encodedAs_of_encode_toNat (formXKK_toNat_fixed_first 0xF#4 x 0x33#8), _, rfl, ?_, ?_, ?_,
    fun a ha => readByte_storeDigits_of_ne (s.getV x) s ha, advance_frame (frame_storeDigits _ s) (by decide)⟩
  · rw [State.advance_readByte, readByte_storeDigits_zero, hundreds_toNat]
  · rw [State.advance_readByte, readByte_storeDigits_one, tens_toNat]
  · rw [State.advance_readByte, readByte_storeDigits_two, ones_toNat]

/-- Settles O41: the address is zero-extended into I, so the top four bits are 0. -/
theorem ldIndexWritesTheAddress : Obligations.LdIndexWritesTheAddress := fun nnn s =>
  ⟨encodedAs_of_encode_toNat (formNNN_toNat 0xA#4 nnn), _, rfl, zextAddr_toNat nnn,
    advance_frame (frame_setI s _) (by decide)⟩

end Sys2Proof.Machine
end

section
/-! Proofs for spec/44_display.md: the clear. -/

namespace Sys2Proof.Machine

theorem frame_show (s : State) (d : Cells) : Frame [.display, .dispUpdated] s (s.show d) := by
  intro p hp
  cases p
  case display | dispUpdated => simp at hp
  all_goals simp [Part.same]

/-- Settles O44: the display shown is the clear one, whose cells are all 0, and showing it pulses `disp_updated` alone. -/
theorem clearSetsEveryCellToZero : Obligations.ClearSetsEveryCellToZero := fun s =>
  ⟨encodedAs_of_encode_toNat rfl, _, rfl, cellAt_clearCells, rfl, advance_frame (frame_show s clearCells) (by decide)⟩

end Sys2Proof.Machine
end

section
/-! Proofs for spec/30_encoding.md: the word put together again from its bytes and from its fields, the decoder held against
the encoder and the opcode map, and the words it refuses. -/

namespace Sys2Proof.Machine

open Laws

/-! ## A word from its bytes (R44) -/

theorem wordOfBytes_toNat (hi lo : Byte) : (wordOfBytes hi lo).toNat = 256 * hi.toNat + lo.toNat := by
  have hd : hi.toNat <<< 8 ||| lo.toNat = hi.toNat <<< 8 + lo.toNat := (Nat.shiftLeft_add_eq_or_of_lt lo.isLt _).symm
  have := hi.isLt
  have := lo.isLt
  rw [wordOfBytes, BitVec.toNat_or, BitVec.toNat_shiftLeft, BitVec.toNat_setWidth_of_le (by decide),
    BitVec.toNat_setWidth_of_le (by decide), Nat.mod_eq_of_lt (by rw [Nat.shiftLeft_eq]; omega), hd, Nat.shiftLeft_eq,
    Nat.mul_comm]

/-- The two bytes of a word, laid out and assembled again, are the word. -/
theorem wordOfBytes_extract (w : Word) : wordOfBytes (w.extractLsb' 8 8) (w.extractLsb' 0 8) = w := by
  have := w.isLt
  apply BitVec.eq_of_toNat_eq
  rw [wordOfBytes_toNat, BitVec.extractLsb'_toNat, BitVec.extractLsb'_toNat, Nat.shiftRight_eq_div_pow]
  omega

/-- Settles O1: the decoder reads the encoder's word back, and the word is what its two bytes assemble to. -/
theorem decodeOfEncodeIsTheInstruction : Obligations.DecodeOfEncodeIsTheInstruction := by
  intro i rest
  refine ⟨decodeWord_encode i, ?_⟩
  simp only [bytesOfWord, List.cons_append, List.nil_append, decodeBytes, wordOfBytes_extract, decodeWord_encode]

/-! ## A word from its fields (R5, R61) -/

section FromFields

variable {w : Word} {op : BitVec 4}

theorem formNNN_fields (h : (fieldOp w).toNat = op.toNat) : formNNN op (fieldNNN w) = w :=
  BitVec.eq_of_toNat_eq (by rw [formNNN_toNat, toNat_eq_fields_NNN w, h])

theorem formXKK_fields (h : (fieldOp w).toNat = op.toNat) : formXKK op (fieldX w) (fieldKK w) = w :=
  BitVec.eq_of_toNat_eq (by rw [formXKK_toNat, toNat_eq_fields_XKK w, h])

theorem formXYN_fields (h : (fieldOp w).toNat = op.toNat) : formXYN op (fieldX w) (fieldY w) (fieldN w) = w :=
  BitVec.eq_of_toNat_eq (by rw [formXYN_toNat, toNat_eq_fields_XYN w, h]; omega)

/-- Format XKK with the low byte fixed by the row. -/
theorem formXKK_fields_of_kk {kk : Byte} (h : (fieldOp w).toNat = op.toNat) (hk : (fieldKK w).toNat = kk.toNat) :
    formXKK op (fieldX w) kk = w := by
  rw [← BitVec.eq_of_toNat_eq hk, formXKK_fields h]

/-- Format XYN with the low nibble fixed by the row. -/
theorem formXYN_fields_of_n {n : Nibble} (h : (fieldOp w).toNat = op.toNat) (hn : (fieldN w).toNat = n.toNat) :
    formXYN op (fieldX w) (fieldY w) n = w := by
  rw [← BitVec.eq_of_toNat_eq hn, formXYN_fields h]

end FromFields

/-- Group 0 (R64): the whole word is fixed. -/
theorem encode_of_decodeGroup0 {w : Word} {i : Instr} (h : decodeGroup0 w = .ok i) : encode i = w := by
  unfold decodeGroup0 at h
  split at h
  next hw => cases h; exact hw.symm
  split at h <;> cases h
  next hw => exact hw.symm

/-- Group 5 (R66). -/
theorem encode_of_decodeGroup5 {w : Word} {i : Instr} (hop : (fieldOp w).toNat = 5) (h : decodeGroup5 w = .ok i) :
    encode i = w := by
  unfold decodeGroup5 at h
  split at h <;> cases h
  next hn => exact formXYN_fields_of_n hop (congrArg BitVec.toNat hn)

/-- Group 8 (R65): in each arm the low nibble is the one the row fixes. -/
theorem encode_of_decodeGroup8 {w : Word} {i : Instr} (hop : (fieldOp w).toNat = 8) (h : decodeGroup8 w = .ok i) :
    encode i = w := by
  unfold decodeGroup8 at h
  split at h <;> cases h <;> exact formXYN_fields_of_n hop ‹_›

/-- Group 9 (R66). -/
theorem encode_of_decodeGroup9 {w : Word} {i : Instr} (hop : (fieldOp w).toNat = 9) (h : decodeGroup9 w = .ok i) :
    encode i = w := by
  unfold decodeGroup9 at h
  split at h <;> cases h
  next hn => exact formXYN_fields_of_n hop (congrArg BitVec.toNat hn)

/-- Group E (R67): in each arm the low byte is the one the row fixes. -/
theorem encode_of_decodeGroupE {w : Word} {i : Instr} (hop : (fieldOp w).toNat = 0xE) (h : decodeGroupE w = .ok i) :
    encode i = w := by
  unfold decodeGroupE at h
  split at h <;> cases h <;> exact formXKK_fields_of_kk hop ‹_›

/-- Group F (R67): in each arm the low byte is the one the row fixes. -/
theorem encode_of_decodeGroupF {w : Word} {i : Instr} (hop : (fieldOp w).toNat = 0xF) (h : decodeGroupF w = .ok i) :
    encode i = w := by
  unfold decodeGroupF at h
  split at h <;> cases h <;> exact formXKK_fields_of_kk hop ‹_›

/-- The encoder writes back every word the decoder accepts: by the sixteen groups of the primary dispatch (R63). -/
theorem encode_of_decodeWord {w : Word} {i : Instr} (h : decodeWord w = .ok i) : encode i = w := by
  have := (fieldOp w).isLt
  unfold decodeWord at h
  split at h
  next => exact encode_of_decodeGroup0 h
  next hop => cases h; exact formNNN_fields hop
  next hop => cases h; exact formNNN_fields hop
  next hop => cases h; exact formXKK_fields hop
  next hop => cases h; exact formXKK_fields hop
  next hop => exact encode_of_decodeGroup5 hop h
  next hop => cases h; exact formXKK_fields hop
  next hop => cases h; exact formXKK_fields hop
  next hop => exact encode_of_decodeGroup8 hop h
  next hop => exact encode_of_decodeGroup9 hop h
  next hop => cases h; exact formNNN_fields hop
  next hop => cases h; exact formNNN_fields hop
  next hop => cases h; exact formXKK_fields hop
  next hop => cases h; exact formXYN_fields hop
  next hop => exact encode_of_decodeGroupE hop h
  next => exact encode_of_decodeGroupF (by simp only [imp_false] at *; omega) h

/-- Settles O2: each format put together from the fields the decoder reads is the word again. -/
theorem encodeOfDecodeIsTheWord : Obligations.EncodeOfDecodeIsTheWord := fun _ _ h => encode_of_decodeWord h

/-! ## The opcode map (R70) -/

theorem rowMatches_iff {i : Instr} {w : Word} : i.rowMatches w = true ↔ w &&& i.maskMatch.1 = i.maskMatch.2 := by
  rw [Instr.rowMatches, beq_iff_eq]

/-- Every instruction's word has the fixed bits of its row: the family of the laws, put together. -/
theorem encodesRow : ∀ i : Instr, EncodesRow.Statement i
  | .cls => EncodesRow.cls
  | .ret => EncodesRow.ret
  | .jp nnn => EncodesRow.jp nnn
  | .call nnn => EncodesRow.call nnn
  | .seImm x kk => EncodesRow.seImm x kk
  | .sneImm x kk => EncodesRow.sneImm x kk
  | .seReg x y => EncodesRow.seReg x y
  | .ldImm x kk => EncodesRow.ldImm x kk
  | .addImm x kk => EncodesRow.addImm x kk
  | .ldReg x y => EncodesRow.ldReg x y
  | .or x y => EncodesRow.or x y
  | .and x y => EncodesRow.and x y
  | .xor x y => EncodesRow.xor x y
  | .addReg x y => EncodesRow.addReg x y
  | .sub x y => EncodesRow.sub x y
  | .shr x y => EncodesRow.shr x y
  | .subn x y => EncodesRow.subn x y
  | .shl x y => EncodesRow.shl x y
  | .sneReg x y => EncodesRow.sneReg x y
  | .ldI nnn => EncodesRow.ldI nnn
  | .jpV0 nnn => EncodesRow.jpV0 nnn
  | .rnd x kk => EncodesRow.rnd x kk
  | .drw x y n => EncodesRow.drw x y n
  | .skp x => EncodesRow.skp x
  | .sknp x => EncodesRow.sknp x
  | .ldFromDT x => EncodesRow.ldFromDT x
  | .ldKey x => EncodesRow.ldKey x
  | .ldDT x => EncodesRow.ldDT x
  | .ldST x => EncodesRow.ldST x
  | .addI x => EncodesRow.addI x
  | .ldFont x => EncodesRow.ldFont x
  | .ldBcd x => EncodesRow.ldBcd x
  | .storeRegs x => EncodesRow.storeRegs x
  | .loadRegs x => EncodesRow.loadRegs x

/-- The operands are of no account to the row: it is that of one of the instructions listed. -/
theorem exists_row (i : Instr) : ∃ j ∈ oneOfEachRow, j.maskMatch = i.maskMatch := by
  have h : ∀ n, oneOfEachRow.any (fun j => j.maskMatch == n) = true → ∃ j ∈ oneOfEachRow, j.maskMatch = n := by
    simp
  cases i <;> exact h _ rfl

/-- A word that decodes matches the row of its instruction, since it is that instruction's word. -/
theorem rowMatches_of_decodeWord {w : Word} {i : Instr} (h : decodeWord w = .ok i) : i.rowMatches w = true := by
  rw [rowMatches_iff, ← encode_of_decodeWord h]
  exact encodesRow i

section Masks

variable {w mask m : Word}

/-- A mask that covers `op` fixes it. -/
theorem fieldOp_of_mask (hm : fieldOp mask = 0xF#4) (h : w &&& mask = m) : fieldOp w = fieldOp m := by
  rw [← h, fieldOp, fieldOp, BitVec.extractLsb'_and, ← fieldOp, ← fieldOp, hm]
  exact (BitVec.and_allOnes).symm

/-- A mask that covers the low nibble fixes it. -/
theorem fieldN_of_mask (hm : fieldN mask = 0xF#4) (h : w &&& mask = m) : fieldN w = fieldN m := by
  rw [← h, fieldN, fieldN, BitVec.extractLsb'_and, ← fieldN, ← fieldN, hm]
  exact (BitVec.and_allOnes).symm

/-- A mask that covers the low byte fixes it. -/
theorem fieldKK_of_mask (hm : fieldKK mask = 0xFF#8) (h : w &&& mask = m) : fieldKK w = fieldKK m := by
  rw [← h, fieldKK, fieldKK, BitVec.extractLsb'_and, ← fieldKK, ← fieldKK, hm]
  exact (BitVec.and_allOnes).symm

end Masks

/-- A word that matches a row decodes: the row's mask fixes all that the dispatch looks at. -/
theorem decodes_of_rowMatches {j : Instr} {w : Word} (h : j.rowMatches w = true) : ∃ i, decodeWord w = .ok i := by
  rw [rowMatches_iff] at h
  cases j <;> simp only [Instr.maskMatch] at h
  case cls | ret => exact ⟨_, (congrArg decodeWord ((BitVec.and_allOnes).symm.trans h)).trans rfl⟩
  case jp | call | seImm | sneImm | ldImm | addImm | ldI | jpV0 | rnd | drw =>
    rw [decodeWord, fieldOp_of_mask rfl h]
    exact ⟨_, rfl⟩
  case seReg | sneReg =>
    rw [decodeWord, fieldOp_of_mask rfl h]
    exact ⟨_, if_pos (fieldN_of_mask rfl h)⟩
  case ldReg | or | and | xor | addReg | sub | shr | subn | shl =>
    rw [decodeWord, fieldOp_of_mask rfl h, decodeGroup8, fieldN_of_mask rfl h]
    exact ⟨_, rfl⟩
  case skp | sknp =>
    rw [decodeWord, fieldOp_of_mask rfl h, decodeGroupE, fieldKK_of_mask rfl h]
    exact ⟨_, rfl⟩
  all_goals
    rw [decodeWord, fieldOp_of_mask rfl h, decodeGroupF, fieldKK_of_mask rfl h]
    exact ⟨_, rfl⟩

/-- Any two rows differ in a bit that both masks cover. -/
theorem rows_disjoint : ∀ i ∈ oneOfEachRow, ∀ j ∈ oneOfEachRow,
    i.maskMatch.2 &&& j.maskMatch.1 = j.maskMatch.2 &&& i.maskMatch.1 → i = j := by decide

/-- Settles O3: acceptance by the masks both ways, and rows that exclude each other. -/
theorem decoderFollowsTheOpcodeMap : Obligations.DecoderFollowsTheOpcodeMap := by
  intro w
  refine ⟨⟨fun ⟨i, hi⟩ => ?_, fun ⟨j, _, hj⟩ => decodes_of_rowMatches hj⟩, fun i hi => rowMatches_of_decodeWord hi,
    fun i hi j hj hiw hjw => rows_disjoint i hi j hj ?_⟩
  · obtain ⟨j, hj, he⟩ := exists_row i
    have hw := rowMatches_iff.mp (rowMatches_of_decodeWord hi)
    exact ⟨j, hj, rowMatches_iff.mpr (he ▸ hw)⟩
  · rw [← rowMatches_iff.mp hiw, ← rowMatches_iff.mp hjw, BitVec.and_assoc, BitVec.and_assoc,
      BitVec.and_comm i.maskMatch.1]

/-! ## The reserved words (R64 to R68) -/

section Reserved

variable {w : Word} {e : DecodeReject}

theorem decodeGroup0_eq_error : decodeGroup0 w = .error e ↔ e = .reservedGroup0 ∧ w ≠ 0x00E0#16 ∧ w ≠ 0x00EE#16 := by
  unfold decodeGroup0
  split
  · simp_all
  · split <;> simp_all [eq_comm]

theorem decodeGroup5_eq_error : decodeGroup5 w = .error e ↔ e = .reservedGroup5 ∧ fieldN w ≠ 0x0#4 := by
  unfold decodeGroup5
  split <;> simp_all [eq_comm]

theorem decodeGroup8_eq_error : decodeGroup8 w = .error e ↔
    e = .reservedGroup8 ∧ (fieldN w).toNat ∈ [0x8, 0x9, 0xA, 0xB, 0xC, 0xD, 0xF] := by
  have := (fieldN w).isLt
  unfold decodeGroup8
  split
  case h_10 => -- no arm for the low nibble
    have hn : (fieldN w).toNat ∈ [0x8, 0x9, 0xA, 0xB, 0xC, 0xD, 0xF] := by
      simp only [List.mem_cons, List.not_mem_nil, imp_false] at *
      omega
    simp [hn, eq_comm]
  all_goals simp [*]

theorem decodeGroup9_eq_error : decodeGroup9 w = .error e ↔ e = .reservedGroup9 ∧ fieldN w ≠ 0x0#4 := by
  unfold decodeGroup9
  split <;> simp_all [eq_comm]

theorem decodeGroupE_eq_error : decodeGroupE w = .error e ↔
    e = .reservedGroupE ∧ (fieldKK w).toNat ∉ [0x9E, 0xA1] := by
  unfold decodeGroupE
  split <;> simp_all [@eq_comm _ e]

theorem decodeGroupF_eq_error : decodeGroupF w = .error e ↔
    e = .reservedGroupF ∧ (fieldKK w).toNat ∉ [0x07, 0x0A, 0x15, 0x18, 0x1E, 0x29, 0x33, 0x55, 0x65] := by
  unfold decodeGroupF
  split <;> simp_all [@eq_comm _ e]

/-- Only the groups with a secondary dispatch refuse words (R63). -/
theorem decodeWord_eq_error : decodeWord w = .error e ↔
    ((fieldOp w).toNat = 0x0 ∧ decodeGroup0 w = .error e) ∨ ((fieldOp w).toNat = 0x5 ∧ decodeGroup5 w = .error e) ∨
      ((fieldOp w).toNat = 0x8 ∧ decodeGroup8 w = .error e) ∨ ((fieldOp w).toNat = 0x9 ∧ decodeGroup9 w = .error e) ∨
      ((fieldOp w).toNat = 0xE ∧ decodeGroupE w = .error e) ∨ ((fieldOp w).toNat = 0xF ∧ decodeGroupF w = .error e) := by
  have := (fieldOp w).isLt
  unfold decodeWord
  split
  case h_16 => -- the last group, F
    have hop : (fieldOp w).toNat = 0xF := by simp only [imp_false] at *; omega
    simp [hop]
  all_goals simp [*]

theorem fieldOp_toNat : (fieldOp w).toNat = w.toNat / 4096 := by
  have := w.isLt
  rw [fieldOp, BitVec.extractLsb'_toNat, Nat.shiftRight_eq_div_pow]
  omega

theorem fieldN_toNat : (fieldN w).toNat = w.toNat % 16 := by simp [fieldN]

theorem fieldKK_toNat : (fieldKK w).toNat = w.toNat % 256 := by simp [fieldKK]

end Reserved

/-- Settles O4: each reject name belongs to one group, and the group's fields are digits of the word's value. -/
theorem reservedWordsAreExactlyThoseListed : Obligations.ReservedWordsAreExactlyThoseListed := by
  intro w
  have hn : fieldN w ≠ 0#4 ↔ w.toNat % 16 ≠ 0 := by rw [← fieldN_toNat, Ne, ← BitVec.toNat_inj]; rfl
  have hw : ∀ v : Word, w ≠ v ↔ w.toNat ≠ v.toNat := fun v => BitVec.toNat_inj.not.symm
  simp only [decodeWord_eq_error, decodeGroup0_eq_error, decodeGroup5_eq_error, decodeGroup8_eq_error,
    decodeGroup9_eq_error, decodeGroupE_eq_error, decodeGroupF_eq_error, fieldOp_toNat, fieldN_toNat, fieldKK_toNat, hn, hw,
    ne_eq, reduceCtorEq, true_and, false_and, and_false, or_false, false_or, not_false_eq_true, and_true]
  have h0 : w.toNat / 4096 = 0 ↔ w.toNat ≤ 0x0FFF := by omega
  exact and_congr_left fun _ => h0

/-! ## The words of the test vectors and the fetched word -/

/-- Settles O5: each word is the one the encoder writes for the instruction beside it. -/
theorem wordsOfTheTestVectorsDecode : Obligations.WordsOfTheTestVectorsDecode :=
  ⟨encodedAs_of_encode_toNat rfl, encodedAs_of_encode_toNat rfl, encodedAs_of_encode_toNat rfl,
    encodedAs_of_encode_toNat rfl, encodedAs_of_encode_toNat rfl, encodedAs_of_encode_toNat rfl,
    encodedAs_of_encode_toNat rfl, encodedAs_of_encode_toNat rfl, encodedAs_of_encode_toNat rfl⟩

/-- Settles O7: the word's value is that of its two bytes in base 256. -/
theorem fetchIsBigEndianAtTheEffectiveAddress : Obligations.FetchIsBigEndianAtTheEffectiveAddress := fun _ =>
  wordOfBytes_toNat _ _

end Sys2Proof.Machine
end

section
/-! Proofs about all instructions (spec/10_state.md section 9, spec/40_fetch_decode_dispatch.md): what each may change,
part by part, and where each leaves PC. -/

namespace Sys2Proof.Machine

/-! ## Frames -/

theorem Part.same.refl (p : Part) (s : State) : p.same s s := by
  cases p
  case v | mem | stack => exact fun _ => rfl
  case display => exact fun _ _ => rfl
  all_goals rfl

/-- A frame may name more parts than change. -/
theorem Frame.mono {ps qs : List Part} {s t : State} (h : Frame ps s t) (hs : ps ⊆ qs) : Frame qs s t :=
  fun p hp => h p fun hm => hp (hs hm)

/-- `s` with the parts `ps` of `t`. -/
def State.patch (s : State) (ps : List Part) (t : State) : State where
  v := if ps.contains .v then t.v else s.v
  i := if ps.contains .i then t.i else s.i
  pc := if ps.contains .pc then t.pc else s.pc
  stack := if ps.contains .stack then t.stack else s.stack
  sp := if ps.contains .sp then t.sp else s.sp
  dt := if ps.contains .dt then t.dt else s.dt
  st := if ps.contains .st then t.st else s.st
  mem := if ps.contains .mem then t.mem else s.mem
  display := if ps.contains .display then t.display else s.display
  k := if ps.contains .k then t.k else s.k
  rng := if ps.contains .rng then t.rng else s.rng
  fault := if ps.contains .fault then t.fault else s.fault
  status := if ps.contains .status then t.status else s.status
  tone := if ps.contains .tone then t.tone else s.tone
  dispUpdated := if ps.contains .dispUpdated then t.dispUpdated else s.dispUpdated
  keys := if ps.contains .keys then t.keys else s.keys

/-- Only the parts patched change. An update is its own patch by rfl, so this gives its frame. -/
theorem frame_patch (s : State) (ps : List Part) (t : State) : Frame ps s (s.patch ps t) := by
  intro p hp
  cases p <;> simp [Part.same, State.patch, State.getV, State.readByte, hp]

theorem frame_await (s : State) : Frame [.status] s s.await := frame_patch s _ s.await

theorem frame_drop (s : State) (h : 0 < s.sp.val) : Frame [.sp] s (s.drop h) := frame_patch s _ (s.drop h)

theorem frame_setDT (s : State) (b : Byte) : Frame [.dt] s (s.setDT b) := frame_patch s _ (s.setDT b)

theorem frame_setST (s : State) (b : Byte) : Frame [.st] s (s.setST b) := frame_patch s _ (s.setST b)

theorem frame_advanceRng (s : State) : Frame [.rng] s s.advanceRng := frame_patch s _ s.advanceRng

/-! ## The instructions with more than one end -/

/-- What `CALL` answers (R112). -/
theorem exec_call_cases {nnn : Addr12} {s t : State} (h : exec (.call nnn) s = .next t) :
    (∃ hs : s.sp.val < 16, t = (s.push (s.pc + 2#16) hs).goto (zextAddr nnn)) ∨ t = s.raise .stackOverflow := by
  simp only [exec, execCall] at h
  split at h <;> cases h
  · exact .inl ⟨‹_›, rfl⟩
  · exact .inr rfl

/-- What `RET` answers (R113). -/
theorem exec_ret_cases {s t : State} (h : exec .ret s = .next t) :
    (∃ hs : 0 < s.sp.val, t = (s.drop hs).goto (s.top hs)) ∨ t = s.raise .stackUnderflow := by
  simp only [exec, execRet] at h
  split at h <;> cases h
  · exact .inl ⟨‹_›, rfl⟩
  · exact .inr rfl

/-- What `LD Vx, K` answers (R142). -/
theorem exec_ldKey_cases {x : Reg} {s t : State} (h : exec (.ldKey x) s = .next t) :
    (s.leastKey = none ∧ t = s.await) ∨ ∃ i : Nibble, t = (s.setV x (i.setWidth 8)).advance := by
  cases h
  split
  · exact .inl ⟨‹_›, rfl⟩
  · exact .inr ⟨_, rfl⟩

/-! ## The write set -/

/-- What the flag-writing instructions do beside their result: only registers, PC and `status` change. -/
theorem flagThen_advance_frame (s : State) (flag : Byte) (x : Reg) (f : State → Byte) :
    DoneAt (s.pc + 2#16) (s.flagThen flag x f).advance ∧ Frame [.v, .pc, .status] s (s.flagThen flag x f).advance :=
  advance_frame (frame_with_v s _) (by decide)

/-- An instruction changes only the parts of its row (R33). -/
theorem exec_frame {i : Instr} {s t : State} (h : exec i s = .next t) : Frame i.writes s t := by
  cases i
  case call nnn =>
    obtain ⟨hs, rfl⟩ | rfl := exec_call_cases h
    · exact ((frame_push s _ hs).trans (frame_goto _ _)).mono (by simp [Instr.writes])
    · exact (frame_raise s _).mono (by simp [Instr.writes])
  case ret =>
    obtain ⟨hs, rfl⟩ | rfl := exec_ret_cases h
    · exact ((frame_drop s hs).trans (frame_goto _ _)).mono (by simp [Instr.writes])
    · exact (frame_raise s _).mono (by simp [Instr.writes])
  case ldKey x =>
    obtain ⟨-, rfl⟩ | ⟨i, rfl⟩ := exec_ldKey_cases h
    · exact (frame_await s).mono (by simp [Instr.writes])
    · exact (setV_advance_frame s x _).2.2
  case drw x y n =>
    cases h
    exact (advance_frame ((frame_setV s vF _).trans (frame_show _ _)) (by decide)).2
  case rnd x kk => cases h; exact (advance_frame ((frame_advanceRng s).trans (frame_setV _ x _)) (by decide)).2
  case cls => cases h; exact (advance_frame (frame_show s _) (by decide)).2
  case storeRegs x => cases h; exact (advance_frame (frame_storeAll _ s) (by decide)).2
  case loadRegs x => cases h; exact (advance_frame (frame_loadAll _ s) (by decide)).2
  case ldBcd x => cases h; exact (advance_frame (frame_storeDigits _ s) (by decide)).2
  case ldDT x => cases h; exact (advance_frame (frame_setDT s _) (by decide)).2
  case ldST x => cases h; exact (advance_frame (frame_setST s _) (by decide)).2
  case ldI | addI | ldFont => cases h; exact (advance_frame (frame_setI s _) (by decide)).2
  case addReg | sub | shr | subn | shl => cases h; exact (flagThen_advance_frame s _ _ _).2
  case ldImm | addImm | ldReg | or | and | xor | ldFromDT => cases h; exact (setV_advance_frame s _ _).2.2
  all_goals (cases h; exact frame_goto s _)

/-- One that does not complete changes FAULT and `status` alone. -/
theorem exec_frame_of_not_done {i : Instr} {s t : State} (h : exec i s = .next t) (ht : t.status ≠ .done) :
    Frame [.fault, .status] s t := by
  obtain ⟨hd, -⟩ | ⟨-, -, rfl⟩ | ⟨-, -, rfl⟩ | ⟨-, -, rfl⟩ := exec_cases h
  · exact absurd hd ht
  · exact (frame_await s).mono (by simp)
  · exact frame_raise s _
  · exact frame_raise s _

/-- Of the registers it changes only those of its row. -/
theorem exec_getV {i : Instr} {s t : State} (h : exec i s = .next t) {r : Reg} (hr : i.writesReg r = false) :
    t.getV r = s.getV r := by
  have hf := exec_frame h
  cases i
  case ldImm | addImm | ldReg | or | and | xor | ldFromDT =>
    cases h
    exact (setV_advance_frame s _ _).1 r (by simpa [Instr.writesReg] using hr)
  case addReg | sub | shr | subn | shl =>
    cases h
    simp only [Instr.writesReg, Bool.or_eq_false_iff, beq_eq_false_iff_ne] at hr
    rw [State.advance_getV, State.getV_flagThen, if_neg hr.1, if_neg hr.2]
  case rnd x kk =>
    cases h
    simp only [Instr.writesReg, beq_eq_false_iff_ne] at hr
    rw [State.advance_getV, State.getV_setV, if_neg hr, State.advanceRng_getV]
  case drw x y n =>
    cases h
    simp only [Instr.writesReg, beq_eq_false_iff_ne] at hr
    rw [State.advance_getV, State.show_getV, State.getV_setFlag, if_neg hr]
  case ldKey x =>
    obtain ⟨-, rfl⟩ | ⟨i, rfl⟩ := exec_ldKey_cases h
    · rfl
    · exact (setV_advance_frame s _ _).1 r (by simpa [Instr.writesReg] using hr)
  case loadRegs x =>
    cases h
    simp only [Instr.writesReg, decide_eq_false_iff_not] at hr
    rw [State.advance_getV, getV_loadAll, if_neg (mt (mem_regsUpTo x r).mp hr)]
  all_goals exact hf .v (by simp [Instr.writes]) r

/-- Of the bytes of memory it changes only those of its row. -/
theorem exec_readByte {i : Instr} {s t : State} (h : exec i s = .next t) {a : Nat} (ha : ¬ i.writesByte s a) :
    t.readByte a = s.readByte a := by
  have hf := exec_frame h
  cases i
  case storeRegs x =>
    cases h
    exact readByte_storeAll_of_ne _ s a fun r hr he => ha ⟨r.toNat, (mem_regsUpTo x r).mp hr, he⟩
  case ldBcd x =>
    cases h
    exact readByte_storeDigits_of_ne _ s fun k hk he => ha ⟨k, hk, he⟩
  all_goals exact hf .mem (by simp [Instr.writes]) a

/-- Of the stack slots `CALL` changes S[SP], and no other instruction any. -/
theorem exec_stack {i : Instr} {s t : State} (h : exec i s = .next t) {j : Fin 16} (hj : ¬ i.writesSlot s j) :
    t.stack[j] = s.stack[j] := by
  have hf := exec_frame h
  cases i
  case call nnn =>
    obtain ⟨hs, rfl⟩ | rfl := exec_call_cases h
    · rw [State.goto_stack, State.stack_push]
      exact if_neg hj
    · rfl
  all_goals exact hf .stack (by simp [Instr.writes]) j

/-- Settles O56: the parts, the registers, the bytes and the slots of each row, one lemma each. -/
theorem instructionsWriteOnlyTheirWriteSet : Obligations.InstructionsWriteOnlyTheirWriteSet := fun _ _ _ h =>
  ⟨exec_frame h, fun _ => exec_getV h, fun _ => exec_readByte h, fun _ => exec_stack h, exec_frame_of_not_done h⟩

/-! ## PC -/

/-- The 23 instructions that end `PC <- PC + 2` (R85). -/
theorem exec_sequential {i : Instr} {s t : State} (h : exec i s = .next t) (hi : i.isSequential = true) :
    DoneAt (s.pc + 2#16) t := by
  cases i
  case storeRegs => cases h; exact (advance_frame (frame_storeAll _ s) (by decide)).1
  case loadRegs => cases h; exact (advance_frame (frame_loadAll _ s) (by decide)).1
  case jp | jpV0 | call | ret | ldKey | seImm | sneImm | seReg | sneReg | skp | sknp => exact absurd hi Bool.false_ne_true
  all_goals (cases h; exact ⟨rfl, rfl⟩)

theorem skipIf_doneAt (s : State) (p : Bool) :
    DoneAt (s.pc + 2#16) (s.skipIf p) ∨ DoneAt (s.pc + 4#16) (s.skipIf p) := by
  cases p
  · exact .inl ⟨rfl, rfl⟩
  · exact .inr ⟨rfl, rfl⟩

/-- The 6 conditional skips (R85). -/
theorem exec_skip {i : Instr} {s t : State} (h : exec i s = .next t) (hi : i.isSkip = true) :
    DoneAt (s.pc + 2#16) t ∨ DoneAt (s.pc + 4#16) t := by
  cases i
  case seImm | sneImm | seReg | sneReg | skp | sknp => cases h; exact skipIf_doneAt s _
  all_goals exact absurd hi Bool.false_ne_true

theorem zextAddr_eq (nnn : Addr12) : zextAddr nnn = BitVec.ofNat 16 nnn.toNat :=
  BitVec.eq_of_toNat_eq (by have := nnn.isLt; rw [zextAddr_toNat, BitVec.toNat_ofNat]; omega)

theorem zextAddr_add_zextByte_toNat (nnn : Addr12) (b : Byte) :
    (zextAddr nnn + zextByte b).toNat = nnn.toNat + b.toNat := by
  have := nnn.isLt
  have := b.isLt
  rw [BitVec.toNat_add, zextAddr_toNat, zextByte, BitVec.toNat_setWidth_of_le (by decide)]
  omega

/-- `RET` with an address on the stack (R113). -/
theorem exec_ret_of_pos {s : State} (h : 0 < s.sp.val) : exec .ret s = .next ((s.drop h).goto (s.top h)) := dif_pos h

/-- `RET` at depth 0 takes StackUnderflow (R113, R163). -/
theorem exec_ret_of_empty {s : State} (h : s.sp.val = 0) : exec .ret s = .next (s.raise .stackUnderflow) :=
  dif_neg (by omega)

/-- Settles O57: the two classes by their lemmas, each absolute target by its instruction, and PC of an instruction that does
not complete by its frame. -/
theorem everyInstructionAdvancesPCAsItsClassSays : Obligations.EveryInstructionAdvancesPCAsItsClassSays := by
  refine ⟨rfl, rfl, fun i s t h => ⟨exec_sequential h, exec_skip h, ?_, ?_, ?_, ?_, ?_,
    fun ht => exec_frame_of_not_done h ht .pc (by decide)⟩⟩
  · rintro nnn rfl
    cases h
    exact ⟨zextAddr_eq nnn, rfl⟩
  · rintro nnn rfl
    cases h
    refine ⟨BitVec.eq_of_toNat_eq ?_, rfl⟩
    have := nnn.isLt
    have := (s.getV 0x0#4).isLt
    rw [State.goto_pc, zextAddr_add_zextByte_toNat, BitVec.toNat_ofNat]
    omega
  · rintro nnn rfl hs
    rw [exec_call_of_lt nnn hs] at h
    cases h
    exact ⟨zextAddr_eq nnn, rfl⟩
  · rintro rfl hs
    rw [exec_ret_of_pos hs] at h
    cases h
    exact ⟨rfl, rfl⟩
  · rintro x rfl hk
    obtain ⟨hn, -⟩ | ⟨i, rfl⟩ := exec_ldKey_cases h
    · exact absurd (leastKey_eq_none.mp hn) hk
    · exact ⟨rfl, rfl⟩

end Sys2Proof.Machine
end

section
/-! Proofs about the step (spec/40_fetch_decode_dispatch.md, spec/60_exceptions.md): what its stages change, the instruction
it runs, its outcomes, and the faults it takes. -/

namespace Sys2Proof.Machine

/-! ## The stages of a step -/

theorem frame_opened (s : State) (keys : Keys) : Frame [.k, .tone, .dispUpdated] s (s.opened keys) :=
  frame_patch s _ (s.opened keys)

theorem frame_tick (s : State) : Frame [.dt, .st, .tone] s s.tick := frame_patch s _ s.tick

theorem frame_consumeKeys (s : State) : Frame [.keys] s s.consumeKeys := frame_patch s _ s.consumeKeys

/-- The end of an instruction changes what the tick changes, if anything (R172). -/
theorem frame_finish (s : State) : Frame [.dt, .st, .tone] s s.finish := by
  unfold State.finish
  split
  · exact frame_tick s
  · exact fun p _ => Part.same.refl p s

/-- What a halted step leaves (R166): the pulses cleared and the fault reported again. -/
theorem frame_halted (s : State) (f : Fault) :
    Frame [.status, .tone, .dispUpdated] s (s.clearPulses.reportFault f) :=
  frame_patch s _ (s.clearPulses.reportFault f)

/-- What a step leaves that takes a fault (R165): FAULT and `status` beside the latch and the cleared pulses. -/
theorem frame_opened_raise (s : State) (keys : Keys) (f : Fault) :
    Frame [.fault, .status, .k, .tone, .dispUpdated] s ((s.opened keys).raise f) :=
  ((frame_opened s keys).trans (frame_raise _ f)).mono (by simp)

/-- `tone` after a tick (R171). -/
theorem tick_tone_iff (s : State) : s.tick.tone = true ↔ s.st.toNat = 1 := by
  rw [State.tick_tone, decide_eq_true_eq, ← BitVec.toNat_inj]
  rfl

/-- An instruction that ends in a fault ends its step as it ends: nothing ticks (R172). -/
theorem State.finish_raise (s : State) (f : Fault) : (s.raise f).finish = s.raise f :=
  State.finish_not_done (by simp)

/-- An instruction that awaits ends its step as it ends (R172, R176). -/
theorem State.finish_await (s : State) : s.await.finish = s.await := State.finish_not_done (by simp)

/-- What a step that is not halted answers: an instruction that completed and the tick, a wait, or a fault taken. -/
theorem stepKeys_end {keys : Keys} {s t : State} (hf : s.fault = none) (h : stepKeys keys s = .next t) :
    (∃ i u, RunsNext s i ∧ exec i (s.opened keys) = .next u ∧ u.status = .done ∧ u.fault = none ∧ t = u.tick) ∨
      ((∃ x, RunsNext s (.ldKey x)) ∧ t = (s.opened keys).await) ∨
      ∃ f, f ≠ .romTooLarge ∧ t = (s.opened keys).raise f := by
  obtain ⟨f, hs, -⟩ | ⟨e, -, -, hs⟩ | ⟨i, u, -, hd, hu, hs⟩ := stepKeys_cases keys s
  · exact absurd (hf.symm.trans hs) (by simp)
  · cases hs.symm.trans h
    exact .inr (.inr ⟨_, by simp, rfl⟩)
  · cases hs.symm.trans h
    obtain ⟨hd', hf'⟩ | ⟨⟨x, rfl⟩, -, rfl⟩ | ⟨-, -, rfl⟩ | ⟨-, -, rfl⟩ := exec_cases hu
    · exact .inl ⟨i, u, ⟨hf, hd⟩, hu, hd', hf'.trans hf, State.finish_done hd'⟩
    · exact .inr (.inl ⟨⟨x, hf, hd⟩, State.finish_await _⟩)
    · exact .inr (.inr ⟨_, by simp, State.finish_raise _ _⟩)
    · exact .inr (.inr ⟨_, by simp, State.finish_raise _ _⟩)

theorem stepKeys_next (keys : Keys) (s : State) : ∃ t, stepKeys keys s = .next t := by
  obtain ⟨_, _, h⟩ | ⟨_, _, _, h⟩ | ⟨_, _, _, _, _, h⟩ := stepKeys_cases keys s <;> exact ⟨_, h⟩

/-! ## The instruction a step runs -/

/-- What is read from exactly two bytes is what their word decodes to. -/
theorem decodeBytes_pair {hi lo : Byte} {i : Instr} (h : decodeBytes [hi, lo] = .ok (i, [])) :
    decodeWord (wordOfBytes hi lo) = .ok i := by
  simp only [decodeBytes] at h
  split at h <;> cases h
  assumption

/-- Settles O6: the two bytes at PC are the fetched word, and what the instruction answers is a next state. -/
theorem stepRunsTheDecodedInstruction : Obligations.StepRunsTheDecodedInstruction := by
  intro s i hf hd
  obtain ⟨u, hu⟩ := exec_next i (s.consumeKeys.opened s.nextKeys)
  rw [hu]
  exact stepKeys_runs (s := s.consumeKeys) hf (decodeBytes_pair hd) hu

/-- Settles O14: a completed instruction ends with the tick; any other ends as it is, and its pulse is the cleared one. -/
theorem timersTickOncePerCompletedInstruction : Obligations.TimersTickOncePerCompletedInstruction := by
  intro keys s i u hr hu
  obtain ⟨hf, hd⟩ := hr
  refine ⟨_, stepKeys_runs hf hd hu, frame_finish u, ?_⟩
  split
  next hdone =>
    rw [State.finish_done hdone]
    exact ⟨tickDown_toNat u.dt, tickDown_toNat u.st, tick_tone_iff u⟩
  next hdone =>
    rw [State.finish_not_done hdone]
    exact ⟨rfl, rfl, exec_frame_of_not_done hu hdone .tone (by decide)⟩

/-! ## Outcomes and faults -/

/-- Settles O8: a halted step repeats its fault, any other ends in one of the three ways. -/
theorem everyStepHasOneOfThreeOutcomes : Obligations.EveryStepHasOneOfThreeOutcomes := by
  intro keys s
  cases hf : s.fault with
  | some f => exact ⟨_, stepKeys_halted keys hf, .inr (.inr ⟨f, hf, rfl⟩)⟩
  | none =>
    obtain ⟨t, ht⟩ := stepKeys_next keys s
    refine ⟨t, ht, ?_⟩
    obtain ⟨_, u, -, -, hd, hu, rfl⟩ | ⟨-, rfl⟩ | ⟨f, -, rfl⟩ := stepKeys_end hf ht
    · exact .inl ⟨hd, hu⟩
    · exact .inr (.inl ⟨rfl, hf⟩)
    · exact .inr (.inr ⟨f, rfl, rfl⟩)

/-- Settles O9: the step takes DecodeError after the latch. -/
theorem undecodableWordRaisesDecodeError : Obligations.UndecodableWordRaisesDecodeError := fun keys s _ hf hd =>
  ⟨_, stepKeys_undecodable keys hf hd, rfl, rfl, rfl, rfl, rfl, frame_opened_raise s keys _⟩

/-- Settles O10: a halted step clears the pulses and reports. -/
theorem haltedCoreReportsItsFault : Obligations.HaltedCoreReportsItsFault := fun keys s f hf =>
  ⟨_, stepKeys_halted keys hf, rfl, rfl, rfl, frame_halted s f⟩

/-- A step of the host's interface in the faulted state. -/
theorem step_halted {s : State} {f : Fault} (h : s.fault = some f) :
    step s = .next (s.consumeKeys.clearPulses.reportFault f) := stepKeys_halted _ (s := s.consumeKeys) h

/-- The outputs report the fault `f`, and no pulse. -/
def Reports (f : Fault) (t : State) : Prop :=
  t.status = .fault f.code f.info ∧ t.tone = false ∧ t.dispUpdated = false

/-- Any number of steps in the faulted state: by induction on the number, each step reporting and moving the port on. -/
theorem run_halted (n : Nat) {s : State} {f : Fault} (h : s.fault = some f) :
    ∃ t : State, Host.Core.run Sys2Proof.core n s = .next t ∧ t.fault = some f ∧
      (0 < n ∨ Reports f s → Reports f t) ∧ Frame [.status, .tone, .dispUpdated, .keys] s t := by
  induction n generalizing s with
  | zero => exact ⟨s, rfl, h, fun hr => hr.resolve_left (by decide), fun p _ => Part.same.refl p s⟩
  | succ n ih =>
    obtain ⟨t, ht, hft, hrt, hfr⟩ := ih (s := s.consumeKeys.clearPulses.reportFault f) h
    refine ⟨t, ?_, hft, fun _ => hrt (.inr ⟨rfl, rfl, rfl⟩),
      (((frame_consumeKeys s).trans (frame_halted _ f)).trans hfr).mono (by simp)⟩
    have hs : Sys2Proof.core.step s = .next (s.consumeKeys.clearPulses.reportFault f) := step_halted h
    simp only [Host.Core.run, hs, ht]

/-- Settles O11: by the induction over the steps; with at least one of them the outputs report. -/
theorem faultStaysThroughAnyNumberOfSteps : Obligations.FaultStaysThroughAnyNumberOfSteps := by
  intro n s f h
  obtain ⟨t, ht, hft, hrt, hfr⟩ := run_halted n h
  exact ⟨t, ht, hft, fun hn => hrt (.inl hn), hfr⟩

/-- Settles O12: of the ends of a step only the fault taken leaves FAULT set, and it changes nothing else. -/
theorem faultsArePrecise : Obligations.FaultsArePrecise := by
  intro keys s t f hf h ht
  obtain ⟨_, u, -, -, -, hu, rfl⟩ | ⟨-, rfl⟩ | ⟨g, hg, rfl⟩ := stepKeys_end hf h
  · exact absurd (hu.symm.trans ht) (by simp)
  · exact absurd (hf.symm.trans ht) (by simp)
  · cases ht
    exact ⟨rfl, hg, rfl, rfl, rfl, frame_opened_raise s keys _⟩

/-- Settles O13: of the four ways an instruction ends, the two that write FAULT. -/
theorem onlyCallAndRetTakeFaults : Obligations.OnlyCallAndRetTakeFaults := by
  intro i s t h ht
  have := s.sp.isLt
  obtain ⟨-, hf⟩ | ⟨-, -, rfl⟩ | ⟨hi, hsp, rfl⟩ | ⟨hi, hsp, rfl⟩ := exec_cases h
  · exact absurd hf ht
  · exact absurd rfl ht
  · exact .inl ⟨hi, by omega, faulted_raise s _⟩
  · exact .inr ⟨hi, by omega, faulted_raise s _⟩

end Sys2Proof.Machine
end

section
/-! Proofs of the invariant of the core (spec/10_state.md section 8, spec/20_memory.md section 1), and for
spec/70_reset_and_hazards.md: the reset table and the ROM load. -/

namespace Sys2Proof.Machine

/-! ## The invariant -/

/-- Every instruction keeps the canonical form of memory: the two stores by their own lemmas, the others write none. -/
theorem exec_keeps_wf {i : Instr} {s t : State} (h : exec i s = .next t) (hm : Memory.wf s.mem = true) :
    Memory.wf t.mem = true := by
  cases i
  case storeRegs x => cases h; exact storeAll_wf _ hm
  case ldBcd x => cases h; exact State.wf_writeByte _ _ (State.wf_writeByte _ _ (State.wf_writeByte _ _ hm))
  case loadRegs x => cases h; rw [loadAll_eq]; exact hm
  case ldKey x => obtain ⟨-, rfl⟩ | ⟨_, rfl⟩ := exec_ldKey_cases h <;> exact hm
  case call nnn => obtain ⟨_, rfl⟩ | rfl := exec_call_cases h <;> exact hm
  case ret => obtain ⟨_, rfl⟩ | rfl := exec_ret_cases h <;> exact hm
  all_goals (cases h; exact hm)

theorem statusAgrees_of_fault {s : State} {f : Fault} (hf : s.fault = some f) (hs : s.status = .fault f.code f.info) :
    StatusAgrees s := by
  simp only [StatusAgrees, hf, hs]

theorem statusAgrees_of_none {s : State} (hf : s.fault = none) (hs : s.status = .done ∨ s.status = .awaitKey) :
    StatusAgrees s := by
  simp only [StatusAgrees, hf, hs]

/-- Without pulses the invariant is that of memory and `status`. -/
theorem inv_of_no_pulse {s : State} (hm : Memory.wf s.mem = true) (hs : StatusAgrees s) (ht : s.tone = false)
    (hd : s.dispUpdated = false) : Inv s := by
  refine ⟨hm, hs, fun h => ?_, fun h => ?_⟩
  · exact absurd (ht.symm.trans h) Bool.false_ne_true
  · exact absurd (hd.symm.trans h) Bool.false_ne_true

/-- A completed instruction and its tick: `tone` only when ST was 1, which the tick runs out. -/
theorem inv_tick {u : State} (hm : Memory.wf u.mem = true) (hs : u.status = .done) (hf : u.fault = none) :
    Inv u.tick := by
  refine ⟨hm, statusAgrees_of_none hf (.inl hs), fun ht => ⟨hs, ?_⟩, fun _ => hs⟩
  have hst : u.st = 1#8 := of_decide_eq_true ht
  rw [State.tick_st, hst]
  rfl

/-- A step keeps the invariant, whatever its snapshot: halted, or by the three ways it ends. -/
theorem stepKeys_keeps_inv {keys : Keys} {s t : State} (hs : Inv s) (h : stepKeys keys s = .next t) : Inv t := by
  obtain ⟨hm, -, -, -⟩ := hs
  cases hf : s.fault with
  | some f =>
    cases (stepKeys_halted keys hf).symm.trans h
    exact inv_of_no_pulse hm (statusAgrees_of_fault hf rfl) rfl rfl
  | none =>
    obtain ⟨i, u, -, hu, hd, hfu, rfl⟩ | ⟨-, rfl⟩ | ⟨f, -, rfl⟩ := stepKeys_end hf h
    · exact inv_tick (exec_keeps_wf hu hm) hd hfu
    · exact inv_of_no_pulse hm (statusAgrees_of_none hf (.inr rfl)) rfl rfl
    · exact inv_of_no_pulse hm (statusAgrees_of_fault rfl rfl) rfl rfl

/-- Settles O15: the port moved on, the step is one with a snapshot. -/
theorem stepKeepsInv : Obligations.StepKeepsInv := fun s _ hs h => stepKeys_keeps_inv (s := s.consumeKeys) hs h

theorem inv_resetWith (seed : Feed 8) : Inv (resetWith seed) :=
  inv_of_no_pulse State.wf_reset (statusAgrees_of_none rfl (.inl rfl)) rfl rfl

/-- Settles O17: the reset state is the reset with its own generator. -/
theorem invHoldsAtReset : Obligations.InvHoldsAtReset := inv_resetWith ⟨[], 0⟩

/-- A ROM that fits is written as it is (R200). -/
theorem boot_of_fits (seed : Feed 8) {rom : List Byte} (h : rom.length ≤ 3584) :
    boot seed rom =
      { resetWith seed with mem := Memory.writeBytes (resetWith seed).mem Config.progBase rom, status := .done } :=
  if_pos (decide_eq_true h)

/-- A longer one is refused (R202). -/
theorem boot_of_tooLarge (seed : Feed 8) {rom : List Byte} (h : 3584 < rom.length) :
    boot seed rom = (resetWith seed).raise .romTooLarge :=
  if_neg fun hw => absurd (of_decide_eq_true hw) (Nat.not_le.mpr h)

theorem inv_boot (seed : Feed 8) (rom : List Byte) : Inv (boot seed rom) := by
  rcases Nat.lt_or_ge 3584 rom.length with h | h
  · rw [boot_of_tooLarge seed h]
    exact inv_of_no_pulse State.wf_reset (statusAgrees_of_fault rfl rfl) rfl rfl
  · rw [boot_of_fits seed h]
    exact inv_of_no_pulse (Memory.wf_writeBytes _ _ State.wf_reset) (statusAgrees_of_none rfl (.inl rfl)) rfl rfl

/-- Settles O16: by the three moves. -/
theorem hostMovesKeepInv : Obligations.HostMovesKeepInv := by
  intro m s t hs h
  cases m with
  | step keys => exact stepKeys_keeps_inv hs h
  | reset seed => cases h; exact inv_resetWith seed
  | boot seed rom => cases h; exact inv_boot seed rom

/-! ## Reset -/

theorem frame_resetWith (seed : Feed 8) : Frame [.rng] State.reset (resetWith seed) :=
  frame_patch State.reset _ (resetWith seed)

/-- Above the font an unlisted byte is 0 (R190). -/
theorem unlistedByte_of_ge {a : Nat} (h : 0x50 ≤ a) : unlistedByte a = 0#8 :=
  List.getD_eq_default _ _ h

theorem ea_of_lt {a : Nat} (h : a ≤ 0xFFF) : ea a = a := Nat.mod_eq_of_lt (Nat.lt_succ_of_le h)

/-- Reset clears the display (R190, D12). -/
theorem cellAt_reset (seed : Feed 8) (cx : Fin 64) (cy : Fin 32) : cellAt (resetWith seed).display cx cy = false :=
  cellAt_clearCells cx cy

/-- A byte above the font after reset. -/
theorem readByte_reset_of_ge (seed : Feed 8) {a : Nat} (h : 0x50 ≤ a) (ha : a ≤ 0xFFF) :
    (resetWith seed).readByte a = 0#8 := (congrArg unlistedByte (ea_of_lt ha)).trans (unlistedByte_of_ge h)

/-- Settles O18: the font by evaluating its 80 bytes, the bytes above it as unlisted ones. -/
theorem resetLeavesTheResetTable : Obligations.ResetLeavesTheResetTable := by
  intro seed
  refine ⟨frame_resetWith seed, rfl, fun r => ?_, rfl, rfl, rfl, rfl, rfl, fun j => ?_, cellAt_reset ⟨[], 0⟩, rfl, rfl,
    rfl, rfl, rfl, rfl, fun a h ha => readByte_reset_of_ge ⟨[], 0⟩ h ha⟩
  · exact Vector.getElem_replicate r.isLt
  · exact Vector.getElem_replicate j.isLt

/-! ## The ROM load -/

/-- A byte outside the addresses written. -/
theorem read_writeBytes_of_ne {bs : List Byte} (m : List Host.Cell) (a x : Nat)
    (h : ∀ j < bs.length, x ≠ ea (a + j)) : Memory.read (Memory.writeBytes m a bs) x = Memory.read m x := by
  induction bs generalizing m a with
  | nil => rfl
  | cons b bs ih =>
    have hrest : ∀ j < bs.length, x ≠ ea (a + 1 + j) := fun j hj => by
      have := h (j + 1) (Nat.succ_lt_succ hj)
      rwa [Nat.add_comm j, ← Nat.add_assoc] at this
    rw [Memory.writeBytes, ih _ _ hrest, Memory.read_write]
    exact if_neg (h 0 (Nat.succ_pos _))

/-- A byte written, when the run of addresses does not come round to it again. -/
theorem read_writeBytes {bs : List Byte} (m : List Host.Cell) (a : Nat) (hl : a + bs.length ≤ 4096) {j : Nat}
    (hj : j < bs.length) : Memory.read (Memory.writeBytes m a bs) (a + j) = bs[j] := by
  induction bs generalizing m a j with
  | nil => exact absurd hj (Nat.not_lt_zero _)
  | cons b bs ih =>
    rw [List.length_cons] at hl hj
    rw [Memory.writeBytes]
    cases j with
    | zero =>
      have hne : ∀ j < bs.length, a ≠ ea (a + 1 + j) := fun j hj => by
        rw [ea_of_lt (by omega)]
        omega
      refine (read_writeBytes_of_ne _ (a + 1) a hne).trans ?_
      rw [Memory.read_write, ea_of_lt (by omega)]
      exact if_pos rfl
    | succ j =>
      have := ih (Memory.write m (ea a) b) (a + 1) (by omega) (Nat.lt_of_succ_lt_succ hj)
      rwa [Nat.add_assoc, Nat.add_comm 1] at this

/-- Settles O19: the bytes of the ROM by the writes, the others by reset, and a ROM too long by the fault. -/
theorem romLoadPlacesTheRom : Obligations.RomLoadPlacesTheRom := by
  intro seed rom
  refine ⟨fun hl => ?_, fun hl => ?_⟩
  · have hkeep : ∀ a ≤ 0xFFF, (∀ j < rom.length, a ≠ 0x200 + j) →
        (boot seed rom).readByte a = (resetWith seed).readByte a := fun a ha hne => by
      rw [boot_of_fits seed hl]
      refine read_writeBytes_of_ne _ _ _ fun j hj => ?_
      rw [ea_of_lt ha, Config.progBase, ea_of_lt (by omega)]
      exact hne j hj
    refine ⟨fun j hj => ?_, fun a hlo hhi => ?_, fun a ha => hkeep a (by omega) fun j _ => by omega, ?_, ?_⟩
    · rw [boot_of_fits seed hl, State.readByte, ea_of_lt (by omega)]
      exact read_writeBytes _ _ (by rw [Config.progBase]; omega) hj
    · rw [hkeep a hhi fun j _ => by omega, readByte_reset_of_ge seed (by omega) hhi]
    · rw [boot_of_fits seed hl]
      exact ⟨rfl, rfl⟩
    · rw [boot_of_fits seed hl]
      exact (frame_with_mem _ _).mono (by simp)
  · rw [boot_of_tooLarge seed hl]
    exact faulted_raise _ _

end Sys2Proof.Machine
end

section
/-! Proofs for spec/41_alu.md sections 4 and 5: the instructions that write VF as a flag, in the order of R91, and the random
byte. -/

namespace Sys2Proof.Machine

/-! ## The flag-writing instructions -/

/-- What the flag-writing instructions share, whatever their flag and result: VF holds the flag unless it is Vx, no third
register changes, and the instruction completes. -/
theorem flagThen_advance (s : State) (flag : Byte) (x : Reg) (f : State → Byte) :
    (x ≠ 0xF#4 → ((s.flagThen flag x f).advance.getV 0xF#4).toNat = flag.toNat) ∧
      RegFrame [x, 0xF#4] s (s.flagThen flag x f).advance ∧
      DoneAt (s.pc + 2#16) (s.flagThen flag x f).advance ∧
      Frame [.v, .pc, .status] s (s.flagThen flag x f).advance := by
  refine ⟨fun hx => ?_, fun r hr => ?_, flagThen_advance_frame s flag x f⟩
  · rw [State.advance_getV, State.getV_flagThen, if_neg hx.symm]
    rfl
  · rw [List.mem_pair, not_or] at hr
    rw [State.advance_getV, State.getV_flagThen, if_neg hr.1]
    exact if_neg hr.2

/-- The result, computed in the state after the flag is written. -/
theorem getV_flagThen_advance (s : State) (flag : Byte) (x : Reg) (f : State → Byte) :
    (s.flagThen flag x f).advance.getV x = f (s.setFlag flag) := by
  rw [State.advance_getV, State.getV_flagThen, if_pos rfl]

/-- An operand as the result's computation reads it again (D9). -/
theorem setFlag_getV_toNat (s : State) (flag : Byte) (r : Reg) :
    ((s.setFlag flag).getV r).toNat = if r = 0xF#4 then flag.toNat else (s.getV r).toNat := by
  rw [State.getV_setFlag, apply_ite BitVec.toNat]
  rfl

theorem flagByte_decide_toNat (p : Prop) [Decidable p] : (flagByte (decide p)).toNat = if p then 1 else 0 := by
  rw [flagByte_toNat]
  simp only [decide_eq_true_eq]

theorem carry_toNat (a b : Byte) : (carry a b).toNat = if 255 < a.toNat + b.toNat then 1 else 0 :=
  flagByte_decide_toNat _

theorem notBorrow_toNat (a b : Byte) : (notBorrow a b).toNat = if b.toNat ≤ a.toNat then 1 else 0 :=
  flagByte_decide_toNat _

/-- A difference of bytes, with 256 added so that nothing is cut off. -/
theorem sub_toNat_mod (a b : Byte) : (a - b).toNat = (256 + a.toNat - b.toNat) % 256 := by
  have := a.isLt
  have := b.isLt
  rw [BitVec.toNat_sub]
  omega

/-- Settles O24: the carry, then the sum of the operands read again. -/
theorem addRegisterSetsCarryThenAdds : Obligations.AddRegisterSetsCarryThenAdds := by
  intro x y s c reread
  have hc : (carry (s.getV x) (s.getV y)).toNat = c := carry_toNat _ _
  obtain ⟨hflag, hframe⟩ := flagThen_advance s (carry (s.getV x) (s.getV y)) x fun t => t.getV x + t.getV y
  refine ⟨_, rfl, ?_, fun hx => (hflag hx).trans hc, hframe⟩
  rw [getV_flagThen_advance, BitVec.toNat_add, setFlag_getV_toNat, setFlag_getV_toNat, hc]

/-- Settles O25: not-borrow, then the difference of the operands read again. -/
theorem subSetsNotBorrowThenSubtracts : Obligations.SubSetsNotBorrowThenSubtracts := by
  intro x y s c reread
  have hc : (notBorrow (s.getV x) (s.getV y)).toNat = c := notBorrow_toNat _ _
  obtain ⟨hflag, hframe⟩ := flagThen_advance s (notBorrow (s.getV x) (s.getV y)) x fun t => t.getV x - t.getV y
  refine ⟨_, rfl, ?_, fun hx => (hflag hx).trans hc, hframe⟩
  rw [getV_flagThen_advance, sub_toNat_mod, setFlag_getV_toNat, setFlag_getV_toNat, hc]

/-- Settles O26: as O25 with the operands exchanged. -/
theorem subnSetsNotBorrowThenSubtracts : Obligations.SubnSetsNotBorrowThenSubtracts := by
  intro x y s c reread
  have hc : (notBorrow (s.getV y) (s.getV x)).toNat = c := notBorrow_toNat _ _
  obtain ⟨hflag, hframe⟩ := flagThen_advance s (notBorrow (s.getV y) (s.getV x)) x fun t => t.getV y - t.getV x
  refine ⟨_, rfl, ?_, fun hx => (hflag hx).trans hc, hframe⟩
  rw [getV_flagThen_advance, sub_toNat_mod, setFlag_getV_toNat, setFlag_getV_toNat, hc]

/-! ## The shifts -/

theorem lowBit_toNat (a : Byte) : (lowBit a).toNat = a.toNat % 2 := by
  rw [lowBit, flagByte_toNat, ← BitVec.testBit_toNat, Nat.testBit_zero]
  simp only [decide_eq_true_eq]
  split <;> omega

theorem highBit_toNat (a : Byte) : (highBit a).toNat = a.toNat / 128 := by
  have := a.isLt
  rw [highBit, flagByte_toNat, ← BitVec.testBit_toNat, Nat.testBit_eq_decide_div_mod_eq]
  simp only [decide_eq_true_eq]
  split <;> omega

theorem shiftRight_one_toNat (a : Byte) : (a >>> 1).toNat = a.toNat / 2 := by
  rw [BitVec.toNat_ushiftRight, Nat.shiftRight_eq_div_pow]

theorem shiftLeft_one_toNat (a : Byte) : (a <<< 1).toNat = 2 * a.toNat % 256 := by
  rw [BitVec.toNat_shiftLeft, Nat.shiftLeft_eq, Nat.mul_comm]

/-- Settles O27: with `x` = 0xF the bit just written is shifted out again. -/
theorem shiftRightPutsBitZeroInVF : Obligations.ShiftRightPutsBitZeroInVF := by
  intro x y s
  obtain ⟨hflag, hframe⟩ := flagThen_advance s (lowBit (s.getV x)) x fun t => t.getV x >>> 1
  have hres : ((s.flagThen (lowBit (s.getV x)) x fun t => t.getV x >>> 1).advance.getV x).toNat =
      (if x = 0xF#4 then (lowBit (s.getV x)).toNat else (s.getV x).toNat) / 2 := by
    rw [getV_flagThen_advance, shiftRight_one_toNat, setFlag_getV_toNat]
  refine ⟨encodedAs_of_encode_toNat (formXYN_toNat 0x8#4 x y 0x6#4), _, rfl, ?_, hframe⟩
  split
  next hx =>
    subst hx
    rw [if_pos rfl, lowBit_toNat] at hres
    exact BitVec.eq_of_toNat_eq (hres.trans (by simp))
  next hx =>
    rw [if_neg hx] at hres
    exact ⟨hres, (hflag hx).trans (lowBit_toNat _)⟩

/-- Settles O28: with `x` = 0xF the bit just written is doubled. -/
theorem shiftLeftPutsBitSevenInVF : Obligations.ShiftLeftPutsBitSevenInVF := by
  intro x y s
  obtain ⟨hflag, hframe⟩ := flagThen_advance s (highBit (s.getV x)) x fun t => t.getV x <<< 1
  have hres : ((s.flagThen (highBit (s.getV x)) x fun t => t.getV x <<< 1).advance.getV x).toNat =
      2 * (if x = 0xF#4 then (highBit (s.getV x)).toNat else (s.getV x).toNat) % 256 := by
    rw [getV_flagThen_advance, shiftLeft_one_toNat, setFlag_getV_toNat]
  refine ⟨encodedAs_of_encode_toNat (formXYN_toNat 0x8#4 x y 0xE#4), _, rfl, ?_, hframe⟩
  split
  next hx =>
    subst hx
    have := (s.getV 0xF#4).isLt
    rw [if_pos rfl, highBit_toNat] at hres
    refine hres.trans ?_
    split <;> omega
  next hx =>
    rw [if_neg hx] at hres
    exact ⟨hres, (hflag hx).trans (highBit_toNat _)⟩

/-! ## The random byte -/

/-- Settles O29: the mask bit by bit, and one value taken from the source in either of its forms. -/
theorem randomByteIsMaskedAndDrawnOnce : Obligations.RandomByteIsMaskedAndDrawnOnce := by
  intro x kk s
  have hrng : (s.advanceRng.setV x (s.rndByte &&& kk)).advance.rng = (s.rng.take Config.rndByte).2 := rfl
  obtain ⟨hregs, hdone, -⟩ := setV_advance_frame s.advanceRng x (s.rndByte &&& kk)
  refine ⟨_, rfl, fun j _ => ?_, fun b bs n h => ?_, fun n h => ?_, hregs, hdone,
    (advance_frame ((frame_advanceRng s).trans (frame_setV _ x _)) (by decide)).2⟩
  · rw [getV_setV_advance, BitVec.getLsbD_and]
  · rw [hrng, State.rndByte, h]
    exact ⟨rfl, rfl⟩
  · rw [hrng, State.rndByte, h]
    exact ⟨rfl, rfl⟩

end Sys2Proof.Machine
end

section
/-! Proofs for spec/42_control_flow.md: the indexed jump, the return, and the call with its return. -/

namespace Sys2Proof.Machine

/-- Settles O31: neither operand is wide enough for the sum to wrap. -/
theorem indexedJumpAddsV0 : Obligations.IndexedJumpAddsV0 := fun nnn s =>
  ⟨_, rfl, zextAddr_add_zextByte_toNat nnn (s.getV 0x0#4), rfl, frame_goto s _⟩

/-- Settles O33: the pop with an address on the stack, the fault without. -/
theorem returnPopsIntoPC : Obligations.ReturnPopsIntoPC := fun s =>
  ⟨fun h => ⟨_, exec_ret_of_pos h, rfl, ⟨rfl, rfl⟩, ((frame_drop s h).trans (frame_goto _ _)).mono (by simp)⟩,
    fun h => ⟨_, exec_ret_of_empty h, faulted_raise s _⟩⟩

/-- Settles O34: the slot pushed is the one popped, and SP comes back to what it was. -/
theorem callThenReturnComesBack : Obligations.CallThenReturnComesBack := by
  intro nnn s h
  have hpos : 0 < ((s.push (s.pc + 2#16) h).goto (zextAddr nnn)).sp.val := Nat.succ_pos _
  refine ⟨_, _, exec_call_of_lt nnn h, exec_ret_of_pos hpos, ⟨?_, rfl⟩, rfl, fun j hj => ?_, fun p hp => ?_⟩
  · exact Vector.getElem_set_self h
  · exact (State.stack_push s _ h j).trans (if_neg hj)
  · cases p
    case stack | pc | status => simp at hp
    case sp => rfl
    all_goals simp [Part.same]

end Sys2Proof.Machine
end

section
/-! Proofs for spec/43_memory_block.md and spec/20_memory.md section 3: the index register's arithmetic, and what a fetch or
a load finds after a store. -/

namespace Sys2Proof.Machine

/-- Settles O40: the 16-bit sum, and a product too small to be cut off. -/
theorem indexArithmeticKeepsSixteenBits : Obligations.IndexArithmeticKeepsSixteenBits := by
  intro x s
  have := (s.getV x).isLt
  refine ⟨⟨_, rfl, ?_, advance_frame (frame_setI s _) (by decide)⟩,
    ⟨_, rfl, ?_, advance_frame (frame_setI s _) (by decide)⟩⟩
  · rw [State.advance_i, State.setI_i, BitVec.toNat_add, zextByte, BitVec.toNat_setWidth_of_le (by decide)]
  · rw [State.advance_i, State.setI_i, glyphAddr, BitVec.toNat_ofNat, Config.glyphBytes]
    omega

/-- The two bytes of the fetched word, each where its address reads (R44, R81). -/
theorem fetchWord_bytes (t : State) : t.fetchWord.toNat / 256 = (t.readByte t.pc.toNat).toNat ∧
    t.fetchWord.toNat % 256 = (t.readByte (t.pc.toNat + 1)).toNat := by
  have := (t.readByte (t.pc.toNat + 1)).isLt
  rw [State.fetchWord, wordOfBytes_toNat]
  omega

theorem readByte_congr (t : State) {a b : Nat} (h : a % 4096 = b % 4096) : t.readByte a = t.readByte b :=
  congrArg (Memory.read t.mem) h

/-- A byte is the high or the low one of the next fetch, as PC falls on its address. -/
theorem fetchWord_of_readByte {t : State} {a n : Nat} (h : (t.readByte a).toNat = n) :
    (t.pc.toNat % 4096 = a % 4096 → t.fetchWord.toNat / 256 = n) ∧
      ((t.pc.toNat + 1) % 4096 = a % 4096 → t.fetchWord.toNat % 256 = n) := by
  obtain ⟨hhi, hlo⟩ := fetchWord_bytes t
  refine ⟨fun ha => ?_, fun ha => ?_⟩
  · rw [hhi, readByte_congr t ha, h]
  · rw [hlo, readByte_congr t ha, h]

/-- The three digits by their place (R122). -/
theorem readByte_storeDigits_toNat (v : Byte) (s : State) {k : Nat} (hk : k < 3) :
    ((storeDigits v s).readByte (s.dataAddr k)).toNat =
      if k = 0 then v.toNat / 100 else if k = 1 then v.toNat / 10 % 10 else v.toNat % 10 := by
  match k, hk with
  | 0, _ => rw [readByte_storeDigits_zero, hundreds_toNat, if_pos rfl]
  | 1, _ => rw [readByte_storeDigits_one, tens_toNat, if_neg Nat.one_ne_zero, if_pos rfl]
  | 2, _ => rw [readByte_storeDigits_two, ones_toNat, if_neg (by decide), if_neg (by decide)]

/-- Settles O42: the bytes after the stores, read by the fetch. -/
theorem storeIsSeenByTheNextFetch : Obligations.StoreIsSeenByTheNextFetch := by
  refine ⟨fun x r s t hr h => ?_, fun x s t k hk h => ?_⟩
  · cases h
    refine fetchWord_of_readByte ?_
    rw [State.advance_readByte, readByte_storeAll_of_mem s ((mem_regsUpTo x r).mpr hr)]
  · cases h
    exact fetchWord_of_readByte (readByte_storeDigits_toNat (s.getV x) s hk)

/-- Settles O43: each register of the transfer is read from the byte it was stored to, since I is unchanged. -/
theorem storeThenLoadRestoresTheRegisters : Obligations.StoreThenLoadRestoresTheRegisters := by
  intro x s u h
  have hi : u.i = s.i := exec_frame h .i (by simp [Instr.writes])
  cases h
  have hv : ∀ r, ((loadAll (regsUpTo x) (storeAll (regsUpTo x) s).advance).advance).getV r = s.getV r := fun r => by
    rw [State.advance_getV, getV_loadAll]
    split
    next hr =>
      rw [State.dataAddr, hi]
      exact readByte_storeAll_of_mem s hr
    next => exact frame_storeAll (regsUpTo x) s .v (by decide) r
  refine ⟨_, rfl, hv, fun p hp => ?_⟩
  by_cases hpv : p = .v
  · subst hpv
    exact hv
  · refine ((frame_storeAll _ s).trans (frame_goto _ _) |>.trans (frame_loadAll _ _) |>.trans (frame_goto _ _)) p ?_
    simp_all

end Sys2Proof.Machine
end

section
/-! Proofs for spec/45_input.md and spec/46_timers.md: the key skips, the key wait, and the timer access with the tick of
its own step. -/

namespace Sys2Proof.Machine

/-! ## Input -/

theorem keyIndex_toNat (b : Byte) : (keyIndex b).toNat = b.toNat % 16 := BitVec.toNat_setWidth 4 b

/-- Settles O48: the key index is the low nibble of Vx. -/
theorem keySkipsTestTheLatch : Obligations.KeySkipsTestTheLatch := by
  intro x s
  have hk : s.keyDown (keyIndex (s.getV x)) = s.k.getLsbD ((s.getV x).toNat % 16) := by
    rw [State.keyDown, keyIndex_toNat]
  refine ⟨⟨_, rfl, ⟨?_, rfl⟩, frame_goto s _⟩, ⟨_, rfl, ⟨?_, rfl⟩, frame_goto s _⟩⟩
  · rw [State.skipIf_pc, hk]
  · simp only [State.skipIf_pc, hk, Bool.not_eq_true', ← Bool.not_eq_true, ite_not]

/-- `LD Vx, K` with no key down (R142). -/
theorem exec_ldKey_of_none (x : Reg) {s : State} (h : s.leastKey = none) : exec (.ldKey x) s = .next s.await := by
  simp only [exec, execLdKey, h]

/-- `LD Vx, K` with `i` the least key down (R142). -/
theorem exec_ldKey_of_some (x : Reg) {s : State} {i : Nibble} (h : s.leastKey = some i) :
    exec (.ldKey x) s = .next (s.setV x (i.setWidth 8)).advance := by
  simp only [exec, execLdKey, h]

/-- Settles O49: the least key is the one with no lower key down. -/
theorem keyWaitCompletesWithTheLeastKey : Obligations.KeyWaitCompletesWithTheLeastKey := by
  intro x s j hj hdown hlow
  refine ⟨_, exec_ldKey_of_some x (leastKey_some hj hdown hlow), ?_, setV_advance_frame s x _⟩
  rw [getV_setV_advance, BitVec.toNat_setWidth_of_le (by decide), BitVec.toNat_ofNat]
  exact Nat.mod_eq_of_lt hj

/-- Settles O50: the wait changes `status` alone, and its step does not tick. -/
theorem keyWaitChangesNothingWithNoKeyDown : Obligations.KeyWaitChangesNothingWithNoKeyDown := by
  intro x s
  refine ⟨fun h => ⟨_, exec_ldKey_of_none x (leastKey_none h), rfl, frame_await s⟩, fun ⟨hf, hd⟩ => ?_⟩
  have hk : (s.opened 0#16).leastKey = none := leastKey_eq_none.mpr rfl
  refine ⟨_, stepKeys_runs hf hd (exec_ldKey_of_none x hk), ?_⟩
  rw [State.finish_await]
  exact ⟨rfl, rfl, rfl, rfl, ((frame_opened s _).trans (frame_await _)).mono (by simp)⟩

/-- Settles O51: the state that stage 3 of a step sees is the same, since the snapshot is latched over K. -/
theorem oldKeypadLatchIsNeverObserved : Obligations.OldKeypadLatchIsNeverObserved := by
  intro keys k' s hf
  obtain ⟨f, hs, -⟩ | ⟨e, -, hd, h⟩ | ⟨i, u, -, hd, hu, h⟩ := stepKeys_cases keys s
  · exact absurd (hf.symm.trans hs) (by simp)
  · exact (stepKeys_undecodable keys (s := { s with k := k' }) hf hd).trans h.symm
  · exact (stepKeys_runs (s := { s with k := k' }) hf hd hu).trans h.symm

/-! ## Timers -/

/-- A step whose instruction completes ends with the tick (R172). -/
theorem stepKeys_of_done {keys : Keys} {s u : State} {i : Instr} (hr : RunsNext s i)
    (hu : exec i (s.opened keys) = .next u) (hd : u.status = .done) : stepKeys keys s = .next u.tick :=
  (stepKeys_runs hr.1 hr.2 hu).trans (by rw [State.finish_done hd])

/-- Settles O52: the register is written before the tick, which leaves registers alone. -/
theorem ldFromDelayTimerReadsBeforeTheTick : Obligations.LdFromDelayTimerReadsBeforeTheTick :=
  ⟨fun x s => ⟨encodedAs_of_encode_toNat (formXKK_toNat_fixed_first 0xF#4 x 0x07#8), _, rfl,
      getV_setV_advance s x s.dt, setV_advance_frame s x s.dt⟩,
    fun keys x s hr => ⟨_, stepKeys_of_done hr rfl rfl, getV_setV_advance (s.opened keys) x s.dt, tickDown_toNat s.dt⟩⟩

/-- Settles O53: the tick counts the value just loaded down. -/
theorem ldDelayTimerIsTickedInItsOwnStep : Obligations.LdDelayTimerIsTickedInItsOwnStep :=
  ⟨fun x s => ⟨_, rfl, rfl, advance_frame (frame_setDT s _) (by decide)⟩,
    fun _ x s hr => ⟨_, stepKeys_of_done hr rfl rfl, tickDown_toNat (s.getV x), rfl⟩⟩

/-- Settles O54: the tick counts the value just loaded down, and `tone` judges it before that. -/
theorem ldSoundTimerFiresToneAtOne : Obligations.LdSoundTimerFiresToneAtOne :=
  ⟨fun x s => ⟨_, rfl, rfl, advance_frame (frame_setST s _) (by decide)⟩,
    fun _ x s hr => ⟨_, stepKeys_of_done hr rfl rfl, tickDown_toNat (s.getV x),
      tick_tone_iff _, rfl⟩⟩

end Sys2Proof.Machine
end

section
/-! Proofs for spec/44_display.md: what a draw makes of each cell, and a draw repeated. -/

namespace Sys2Proof.Machine

/-- Bit (row, col) of the sprite of `DRW Vx, Vy, n` falls on cell (cx, cy) (R131). -/
def State.SpriteAt (s : State) (x y : Reg) (n : Nibble) (row col : Nat) (cx : Fin 64) (cy : Fin 32) : Prop :=
  row < n.toNat ∧ col < 8 ∧ cx.val = ((s.getV x).toNat + col) % 64 ∧ cy.val = ((s.getV y).toNat + row) % 32

section Drawn

variable {s : State} {x y : Reg} {n : Nibble} {row col : Nat} {cx : Fin 64} {cy : Fin 32}

/-- The bits that `DRW Vx, Vy, n` draws. -/
def State.drawnBits (s : State) (x y : Reg) (n : Nibble) : List ((Fin 64 × Fin 32) × Bool) :=
  spriteBits (s.getV x) (s.getV y) n.toNat s.spriteRow

theorem drawn_eq : s.drawn x y n = drawBits (s.drawnBits x y n) ⟨s.display, false⟩ := drawSprite_eq _ _ _ _ _

theorem drawnBits_nodup : ((s.drawnBits x y n).map (·.1)).Nodup := spriteBits_nodup _ _ _ (Nat.le_of_lt_succ n.isLt)

/-- The bits drawn are those that fall somewhere. -/
theorem mem_drawnBits {bit : Bool} : ((cx, cy), bit) ∈ s.drawnBits x y n ↔
    ∃ row col, s.SpriteAt x y n row col cx cy ∧ bit = spriteBit (s.spriteRow row) col := by
  simp only [State.drawnBits, mem_spriteBits, State.SpriteAt, Prod.mk.injEq, targetX, targetY, Fin.ext_iff, and_assoc]

/-- The cell under a sprite bit is XORed with it (R131). -/
theorem cellAt_drawn (h : s.SpriteAt x y n row col cx cy) :
    cellAt (s.drawn x y n).cells cx cy = (cellAt s.display cx cy != spriteBit (s.spriteRow row) col) := by
  rw [drawn_eq]
  exact cellAt_drawBits_of_mem (t := ((cx, cy), spriteBit (s.spriteRow row) col)) _ drawnBits_nodup
    (mem_drawnBits.mpr ⟨row, col, h, rfl⟩)

/-- A cell under no sprite bit is unchanged (R131). -/
theorem cellAt_drawn_of_not (h : ∀ row col, ¬ s.SpriteAt x y n row col cx cy) :
    cellAt (s.drawn x y n).cells cx cy = cellAt s.display cx cy := by
  rw [drawn_eq]
  refine cellAt_drawBits_of_ne _ _ (cx, cy) ?_
  rintro ⟨_, bit⟩ ht rfl
  obtain ⟨row, col, hat, -⟩ := mem_drawnBits.mp ht
  exact h row col hat

/-- A collision: a set cell meets a set bit (R131). -/
theorem drawn_hit : (s.drawn x y n).hit = true ↔ ∃ row col cx cy, s.SpriteAt x y n row col cx cy ∧
    spriteBit (s.spriteRow row) col = true ∧ cellAt s.display cx cy = true := by
  rw [drawn_eq, drawBits_hit _ drawnBits_nodup]
  constructor
  · rintro (h | ⟨⟨⟨cx, cy⟩, bit⟩, ht, hb, hc⟩)
    · exact absurd h Bool.false_ne_true
    · obtain ⟨row, col, hat, rfl⟩ := mem_drawnBits.mp ht
      exact ⟨row, col, cx, cy, hat, hb, hc⟩
  · rintro ⟨row, col, cx, cy, hat, hb, hc⟩
    exact .inr ⟨((cx, cy), _), mem_drawnBits.mpr ⟨row, col, hat, rfl⟩, hb, hc⟩

end Drawn

/-- Settles O45: each cell by the lemmas above, and VF by the collision. -/
theorem drawXorsTheSpriteAndReportsCollision : Obligations.DrawXorsTheSpriteAndReportsCollision := by
  intro x y n s bit at_
  have hvf : (((s.setFlag (flagByte (s.drawn x y n).hit)).show (s.drawn x y n).cells).advance).getV 0xF#4 =
      flagByte (s.drawn x y n).hit := getV_setV_advance s 0xF#4 _
  refine ⟨_, rfl, fun row col cx cy h => cellAt_drawn h, fun cx cy h => cellAt_drawn_of_not h, fun h => ?_, fun h => ?_,
    fun r hr => ?_, rfl, advance_frame ((frame_setV s vF _).trans (frame_show _ _)) (by decide)⟩
  · rw [hvf, drawn_hit.mpr h]
    rfl
  · have hno : (s.drawn x y n).hit = false := Bool.eq_false_iff.mpr fun hh => by
      obtain ⟨row, col, cx, cy, hat, hb⟩ := drawn_hit.mp hh
      exact h row col cx cy hat hb
    rw [hvf, hno]
    rfl
  · exact exec_getV (i := .drw x y n) rfl (beq_false_of_ne (List.ne_of_not_mem_cons hr))

/-- Settles O46: the second draw has the coordinates and the bytes of the first, and a bit XORed twice is gone. -/
theorem drawTwiceRestoresTheDisplay : Obligations.DrawTwiceRestoresTheDisplay := by
  intro x y n s u hx hy h
  have hfr := exec_frame h
  have hgx : u.getV x = s.getV x := exec_getV h (beq_false_of_ne hx)
  have hgy : u.getV y = s.getV y := exec_getV h (beq_false_of_ne hy)
  have hi : u.i = s.i := hfr .i (by simp [Instr.writes])
  have hrow : ∀ row, u.spriteRow row = s.spriteRow row := fun row => by
    rw [State.spriteRow, State.spriteRow, State.dataAddr, hi]
    exact hfr .mem (by simp [Instr.writes]) _
  have hd : u.display = (s.drawn x y n).cells := by cases h; rfl
  refine ⟨_, rfl, fun cx cy => ?_, (hfr.trans (exec_frame (i := .drw x y n) rfl)).mono (by simp [Instr.writes])⟩
  have hat : ∀ row col, u.SpriteAt x y n row col cx cy ↔ s.SpriteAt x y n row col cx cy := fun row col => by
    rw [State.SpriteAt, State.SpriteAt, hgx, hgy]
  change cellAt (u.drawn x y n).cells cx cy = cellAt s.display cx cy
  by_cases hex : ∃ row col, s.SpriteAt x y n row col cx cy
  · obtain ⟨row, col, hs⟩ := hex
    rw [cellAt_drawn ((hat row col).mpr hs), hrow, hd, cellAt_drawn hs]
    simp
  · have hno : ∀ row col, ¬ s.SpriteAt x y n row col cx cy := fun row col hs => hex ⟨row, col, hs⟩
    rw [cellAt_drawn_of_not fun row col hu => hno row col ((hat row col).mp hu), hd, cellAt_drawn_of_not hno]

end Sys2Proof.Machine
end

section
/-! Proofs about what no program observes (spec/10_state.md sections 4 and 5, spec/44_display.md): parts that nearly every
instruction neither reads nor writes, and relations between two cores that every step keeps. -/

namespace Sys2Proof.Machine

/-! ## Parts that most instructions neither read nor write -/

/-- `s` with the sound timer, `tone` and the display of `o`. -/
def State.overlay (s o : State) : State := { s with st := o.st, tone := o.tone, display := o.display }

/-- `s` with other contents of the call stack's slots. -/
def State.withStack (s : State) (σ : Vector Word 16) : State := { s with stack := σ }

theorem storeAll_overlay (rs : List Reg) (s o : State) : storeAll rs (s.overlay o) = (storeAll rs s).overlay o :=
  List.foldl_hom (fun s : State => s.overlay o) fun _ _ => rfl

theorem loadAll_overlay (rs : List Reg) (s o : State) : loadAll rs (s.overlay o) = (loadAll rs s).overlay o :=
  List.foldl_hom (fun s : State => s.overlay o) fun _ _ => rfl

theorem storeAll_withStack (rs : List Reg) (s : State) (σ : Vector Word 16) :
    storeAll rs (s.withStack σ) = (storeAll rs s).withStack σ :=
  List.foldl_hom (fun s : State => s.withStack σ) fun _ _ => rfl

theorem loadAll_withStack (rs : List Reg) (s : State) (σ : Vector Word 16) :
    loadAll rs (s.withStack σ) = (loadAll rs s).withStack σ :=
  List.foldl_hom (fun s : State => s.withStack σ) fun _ _ => rfl

/-- An instruction that writes neither ST nor the display reads none of ST, `tone` and the display either. -/
theorem exec_overlay {i : Instr} {s t : State} (h : exec i s = .next t) (hst : .st ∉ i.writes)
    (hd : .display ∉ i.writes) (o : State) : exec i (s.overlay o) = .next (t.overlay o) := by
  cases i
  case ldST | cls | drw => simp [Instr.writes] at hst hd
  case call nnn =>
    rcases Nat.lt_or_eq_of_le (Nat.le_of_lt_succ s.sp.isLt) with hs | hs
    · cases (exec_call_of_lt nnn hs).symm.trans h
      exact exec_call_of_lt nnn (s := s.overlay o) hs
    · cases (exec_call_of_full nnn hs).symm.trans h
      exact exec_call_of_full nnn (s := s.overlay o) hs
  case ret =>
    rcases Nat.eq_zero_or_pos s.sp.val with hs | hs
    · cases (exec_ret_of_empty hs).symm.trans h
      exact exec_ret_of_empty (s := s.overlay o) hs
    · cases (exec_ret_of_pos hs).symm.trans h
      exact exec_ret_of_pos (s := s.overlay o) hs
  case storeRegs x => cases h; rw [exec, execStoreRegs, storeAll_overlay]; rfl
  case loadRegs x => cases h; rw [exec, execLoadRegs, loadAll_overlay]; rfl
  case ldKey x =>
    have hk : (s.overlay o).leastKey = s.leastKey := rfl
    cases h
    simp only [exec, execLdKey, hk]
    cases s.leastKey <;> rfl
  all_goals (cases h; rfl)

/-- So it leaves these parts as they are: overlaid with themselves, they are what the instruction answers. -/
theorem eq_overlay_of_exec {i : Instr} {s t : State} (h : exec i s = .next t) (hst : .st ∉ i.writes)
    (hd : .display ∉ i.writes) : t = t.overlay s :=
  Host.Outcome.next.inj (h.symm.trans (exec_overlay h hst hd s))

/-- An instruction that does not write SP does not read the slots either. -/
theorem exec_withStack {i : Instr} {s t : State} (h : exec i s = .next t) (hsp : .sp ∉ i.writes) (σ : Vector Word 16) :
    exec i (s.withStack σ) = .next (t.withStack σ) := by
  cases i
  case call | ret => simp [Instr.writes] at hsp
  case storeRegs x => cases h; rw [exec, execStoreRegs, storeAll_withStack]; rfl
  case loadRegs x => cases h; rw [exec, execLoadRegs, loadAll_withStack]; rfl
  case ldKey x =>
    have hk : (s.withStack σ).leastKey = s.leastKey := rfl
    cases h
    simp only [exec, execLdKey, hk]
    cases s.leastKey <;> rfl
  all_goals (cases h; rfl)

/-- So it leaves them as they are. -/
theorem stack_eq_of_exec {i : Instr} {s t : State} (h : exec i s = .next t) (hsp : .sp ∉ i.writes) :
    t.stack = s.stack :=
  have ht : t = t.withStack s.stack := Host.Outcome.next.inj (h.symm.trans (exec_withStack h hsp s.stack))
  (congrArg State.stack ht).trans rfl

/-! ## The display -/

/-- Only the display replaced. -/
theorem frame_with_display (s : State) (d : Cells) : Frame [.display] s { s with display := d } :=
  frame_patch s _ { s with display := d }

/-- Only `CLS` and `DRW` have the display in their row (R33). -/
theorem display_not_mem_writes {i : Instr} (hc : i ≠ .cls) (hd : ∀ x y n, i ≠ .drw x y n) : .display ∉ i.writes := by
  cases i
  case cls => exact absurd rfl hc
  case drw x y n => exact absurd rfl (hd x y n)
  all_goals simp [Instr.writes]

/-- An instruction that does not write the display does not read it. -/
theorem exec_with_display {i : Instr} {s t : State} (h : exec i s = .next t) (hd : .display ∉ i.writes) (d : Cells) :
    exec i { s with display := d } = .next { t with display := d } := by
  by_cases hst : .st ∈ i.writes
  · cases i
    case ldST => cases h; rfl
    all_goals simp [Instr.writes] at hst
  · rw [eq_overlay_of_exec h hst hd]
    exact exec_overlay h hst hd { s with display := d }

/-- A step that runs neither `CLS` nor `DRW` leaves the display. -/
theorem stepKeys_display {keys : Keys} {s t : State} (h : stepKeys keys s = .next t) (hc : ¬ RunsNext s .cls)
    (hd : ∀ x y n, ¬ RunsNext s (.drw x y n)) : Part.same .display s t := by
  cases hf : s.fault with
  | some f =>
    cases (stepKeys_halted keys hf).symm.trans h
    exact frame_halted s f .display (by decide)
  | none =>
    obtain ⟨i, u, hr, hu, -, -, rfl⟩ | ⟨-, rfl⟩ | ⟨f, -, rfl⟩ := stepKeys_end hf h
    · have hi : .display ∉ i.writes :=
        display_not_mem_writes (fun e => hc (e ▸ hr)) fun x y n e => hd x y n (e ▸ hr)
      exact exec_frame hu .display hi
    · exact fun _ _ => rfl
    · exact fun _ _ => rfl

theorem romLoad_display (rom : List Byte) (s : State) : (romLoad rom s).display = s.display := by
  unfold romLoad
  split <;> rfl

/-- Two runs of one instruction from states that differ in the display alone end so too, but for VF after a draw. -/
theorem exec_display_frame {i : Instr} {s t t' : State} {d : Cells} (h : exec i s = .next t)
    (h' : exec i { s with display := d } = .next t') :
    Frame [.display, .v] t t' ∧ RegFrame [0xF#4] t t' ∧ ((∀ x y n, i ≠ .drw x y n) → Part.same .v t t') := by
  by_cases hi : .display ∈ i.writes
  · cases i
    case cls =>
      cases h
      cases h'
      exact ⟨fun p _ => Part.same.refl p _, fun _ _ => rfl, fun _ _ => rfl⟩
    case drw x y n =>
      cases h
      cases h'
      refine ⟨(frame_with_display _ _).trans (frame_with_v _ _), fun r hr => ?_, fun hne => absurd rfl (hne x y n)⟩
      · have hr' : r ≠ vF := List.ne_of_not_mem_cons hr
        simp only [State.advance_getV, State.show_getV, State.getV_setFlag, if_neg hr']
        rfl
    all_goals simp [Instr.writes] at hi
  · cases h'.symm.trans (exec_with_display h hi d)
    exact ⟨(frame_with_display t d).mono (by simp), fun _ _ => rfl, fun _ _ => rfl⟩

/-- Settles O47: the frame of a step, the two host operations, and the two runs that differ in the display. -/
theorem onlyDrawAndClearWriteTheDisplay : Obligations.OnlyDrawAndClearWriteTheDisplay :=
  ⟨fun _ _ _ h hr => stepKeys_display h hr.1 hr.2, fun rom s cx cy => by rw [romLoad_display], cellAt_reset,
    fun _ _ _ _ _ => exec_display_frame⟩

/-! ## Relations that every step keeps -/

/-- A relation that the stages of a step keep: the two cores fetch the same word and halt alike, and each operation that ends
or begins a step, and each instruction, leads from related states to related states. -/
structure StagesKeep (R : State → State → Prop) : Prop where
  fault : ∀ {s t}, R s t → t.fault = s.fault
  fetchWord : ∀ {s t}, R s t → t.fetchWord = s.fetchWord
  opened : ∀ {s t} (keys : Keys), R s t → R (s.opened keys) (t.opened keys)
  halted : ∀ {s t} (f : Fault), R s t → R (s.clearPulses.reportFault f) (t.clearPulses.reportFault f)
  raise : ∀ {s t} (f : Fault), R s t → R (s.raise f) (t.raise f)
  finish : ∀ {s t}, R s t → R s.finish t.finish
  exec : ∀ {s t} {i : Instr} {u : State}, R s t → exec i s = .next u → ∃ u', exec i t = .next u' ∧ R u u'

/-- Such a relation is kept by every step (R80). -/
theorem StagesKeep.stepKeys {R : State → State → Prop} (hR : StagesKeep R) {keys : Keys} {s t s' : State} (h : R s t)
    (hs : stepKeys keys s = .next s') : ∃ t', stepKeys keys t = .next t' ∧ R s' t' := by
  have hf := hR.fault h
  have hw := hR.fetchWord h
  obtain ⟨f, hsf, hs'⟩ | ⟨e, hsf, hd, hs'⟩ | ⟨i, u, hsf, hd, hu, hs'⟩ := stepKeys_cases keys s <;>
    cases hs'.symm.trans hs
  · exact ⟨_, stepKeys_halted keys (hf.trans hsf), hR.halted f h⟩
  · refine ⟨_, stepKeys_undecodable keys (hf.trans hsf) (hw ▸ hd), ?_⟩
    rw [hw]
    exact hR.raise _ (hR.opened keys h)
  · obtain ⟨u', hu', hr⟩ := hR.exec (hR.opened keys h) hu
    exact ⟨_, stepKeys_runs (hf.trans hsf) (hw ▸ hd) hu', hR.finish hr⟩

/-! ## The sound timer -/

theorem sameButSound_iff {s t : State} : SameButSound s t ↔ ∃ a b, t = { s with st := a, tone := b } :=
  ⟨fun h => ⟨_, _, h⟩, fun ⟨_, _, h⟩ => by subst h; rfl⟩

/-- Whether an instruction completes depends on neither, and the tick writes both (R170, R171). -/
theorem sameButSound_finish {s t : State} (h : SameButSound s t) : SameButSound s.finish t.finish := by
  obtain ⟨a, b, rfl⟩ := sameButSound_iff.mp h
  unfold State.finish
  split
  · rfl
  · exact h

/-- No instruction reads the sound timer, and only `LD ST, Vx` writes it (R17). -/
theorem exec_sameButSound {i : Instr} {s t u : State} (h : SameButSound s t) (hu : exec i s = .next u) :
    ∃ u', exec i t = .next u' ∧ SameButSound u u' := by
  obtain ⟨a, b, rfl⟩ := sameButSound_iff.mp h
  cases i
  case cls | drw | ldST => cases hu; exact ⟨_, rfl, rfl⟩
  all_goals
    rw [eq_overlay_of_exec hu (by simp [Instr.writes]) (by simp [Instr.writes])]
    exact ⟨_, exec_overlay hu (by simp [Instr.writes]) (by simp [Instr.writes]) { s with st := a, tone := b }, rfl⟩

theorem stagesKeep_sameButSound : StagesKeep SameButSound where
  fault h := by rw [h]
  fetchWord h := by rw [h]; rfl
  opened keys h := by rw [h]; rfl
  halted f h := by rw [h]; rfl
  raise f h := by rw [h]; rfl
  finish := sameButSound_finish
  exec := exec_sameButSound

/-- Settles O55: the relation is one that every stage of a step keeps. -/
theorem soundTimerIsNotObservable : Obligations.SoundTimerIsNotObservable := fun _ _ _ _ h hs =>
  stagesKeep_sameButSound.stepKeys h hs

/-! ## The stale slots of the stack -/

theorem sameButStaleSlots_iff {s t : State} : SameButStaleSlots s t ↔
    ∃ σ : Vector Word 16, (∀ j : Fin 16, j.val < s.sp.val → σ[j] = s.stack[j]) ∧ t = s.withStack σ :=
  ⟨fun ⟨h, hσ⟩ => ⟨_, hσ, h⟩, fun ⟨_, hσ, h⟩ => by subst h; exact ⟨rfl, hσ⟩⟩

/-- `CALL` writes the first stale slot and `RET` reads the last other one; the rest use no slot (R14, R15). -/
theorem exec_sameButStaleSlots {i : Instr} {s t u : State} (h : SameButStaleSlots s t) (hu : exec i s = .next u) :
    ∃ u', exec i t = .next u' ∧ SameButStaleSlots u u' := by
  obtain ⟨σ, hσ, rfl⟩ := sameButStaleSlots_iff.mp h
  cases i
  case call nnn =>
    rcases Nat.lt_or_eq_of_le (Nat.le_of_lt_succ s.sp.isLt) with hs | hs
    · cases (exec_call_of_lt nnn hs).symm.trans hu
      refine ⟨_, exec_call_of_lt nnn (s := s.withStack σ) hs, rfl, fun j hj => ?_⟩
      refine (State.stack_push (s.withStack σ) _ hs j).trans (Eq.trans ?_ (State.stack_push s _ hs j).symm)
      by_cases hjs : j.val = s.sp.val
      · exact (if_pos hjs).trans (if_pos hjs).symm
      · exact (if_neg hjs).trans ((hσ j (Nat.lt_of_le_of_ne (Nat.le_of_lt_succ hj) hjs)).trans (if_neg hjs).symm)
    · cases (exec_call_of_full nnn hs).symm.trans hu
      exact ⟨_, exec_call_of_full nnn (s := s.withStack σ) hs, rfl, hσ⟩
  case ret =>
    rcases Nat.eq_zero_or_pos s.sp.val with hs | hs
    · cases (exec_ret_of_empty hs).symm.trans hu
      exact ⟨_, exec_ret_of_empty (s := s.withStack σ) hs, rfl, hσ⟩
    · cases (exec_ret_of_pos hs).symm.trans hu
      have htop : (s.withStack σ).top hs = s.top hs := hσ ⟨s.sp.val - 1, by omega⟩ (Nat.sub_lt hs Nat.one_pos)
      refine ⟨_, exec_ret_of_pos (s := s.withStack σ) hs, ?_⟩
      rw [htop]
      exact ⟨rfl, fun j hj => hσ j (Nat.lt_of_lt_of_le hj (Nat.sub_le _ _))⟩
  all_goals
    refine ⟨_, exec_withStack hu (by simp [Instr.writes]) σ, rfl, fun j hj => ?_⟩
    rw [exec_frame hu .sp (by simp [Instr.writes])] at hj
    rw [stack_eq_of_exec hu (by simp [Instr.writes])]
    exact hσ j hj

theorem sameButStaleSlots_finish {s t : State} (h : SameButStaleSlots s t) : SameButStaleSlots s.finish t.finish := by
  obtain ⟨σ, hσ, rfl⟩ := sameButStaleSlots_iff.mp h
  by_cases hd : s.status = .done
  · rw [State.finish_done hd, State.finish_done (s := s.withStack σ) hd]
    exact ⟨rfl, hσ⟩
  · rw [State.finish_not_done hd, State.finish_not_done (s := s.withStack σ) hd]
    exact h

theorem stagesKeep_sameButStaleSlots : StagesKeep SameButStaleSlots where
  fault h := by rw [h.1]
  fetchWord h := by rw [h.1]; rfl
  opened keys h := ⟨by rw [h.1]; rfl, h.2⟩
  halted f h := ⟨by rw [h.1]; rfl, h.2⟩
  raise f h := ⟨by rw [h.1]; rfl, h.2⟩
  finish := sameButStaleSlots_finish
  exec := exec_sameButStaleSlots

/-- Settles O58: the relation is one that every stage of a step keeps. -/
theorem staleStackSlotsAreNotObservable : Obligations.StaleStackSlotsAreNotObservable := fun _ _ _ _ h hs =>
  stagesKeep_sameButStaleSlots.stepKeys h hs

end Sys2Proof.Machine
end
